-- ==== Sys2Proof/Word.lean ====
section
/-! DEFINITION. The widths of 00_scope.md R8 and 30_encoding.md R80: bytes, 16-bit lengths and the four
port words. All values are unsigned (R8). -/

namespace Sys2Proof

/-- A byte, bits 7 to 0 (00_scope.md R8). -/
abbrev Byte := BitVec 8

/-- A 16-bit length, index, offset or capacity (00_scope.md R6: `LEN_W`, `CAP_W`). -/
abbrev Half := BitVec 16

/-- A word of the `src` port (30_encoding.md R83). -/
abbrev SrcWord := BitVec 9

/-- A word of the `tx_req` port (30_encoding.md R85). -/
abbrev TxReqWord := BitVec 17

/-- A word of the `sink_resp` port (30_encoding.md R87). -/
abbrev SinkWord := BitVec 18

/-- A word of the `rx_resp` port (30_encoding.md R82). -/
abbrev RxRespWord := BitVec 18

/-- A word of the `tx_resp` port (30_encoding.md R86). -/
abbrev TxRespWord := BitVec 3

end Sys2Proof
end

