-- ==== Sys2Proof/Config.lean ====
section
/-! DEFINITION. What an implementation fixes: the constants of 00_scope.md R6, the default of its one
numeric parameter, and the free values for everything the spec leaves to be any value. A free value is an
opaque constant: nothing can be proved of what it is, so a theorem holds for every value of it. -/

namespace Sys2Proof

/-- The start marker (00_scope.md R6, 30_encoding.md R75). -/
def Config.startMarker : Byte := 0xFA

/-- The data-start marker (00_scope.md R6, 30_encoding.md R75). -/
def Config.dataStartMarker : Byte := 0xFB

/-- The stop marker (00_scope.md R6, 30_encoding.md R75). -/
def Config.stopMarker : Byte := 0xFE

/-- The CRC-8 generator `x^8 + x^2 + x + 1` without its top term (00_scope.md R6). -/
def Config.poly : Byte := 0x07

/-- The CRC-8 initial value (00_scope.md R6). -/
def Config.crcInit : Byte := 0x00

/-- The bytes of a frame around its payload (00_scope.md R6, 30_encoding.md R71). -/
@[reducible] def Config.frameOverhead : Nat := 7

/-- The default of `TX_FRAME_MAX` (00_scope.md R6, D17). -/
def Config.txFrameMaxDefault : Nat := 65542

/-- FREE VALUE (log 8): what a byte of memory that nothing has written holds, by its address
(10_state.md R38, U2, U3: any value). -/
opaque Config.powerOnByte : Nat → Byte

/-- FREE VALUE (log 9): what a host read of the receive buffer gives while a request is armed
(20_memory.md R66, U4: any value). -/
opaque Config.raceReadByte : Nat → Byte

/-- FREE VALUE (log 10): what a byte of the receive buffer holds after the host wrote it while a request
was armed (20_memory.md R66, U5: any value). -/
opaque Config.raceWriteByte : Nat → Byte

/-- FREE VALUE (log 10): what a byte of the receive buffer holds after the engine stored to it, where the host wrote
it in the same request (20_memory.md R66, U5: any value, the write may stand or be overwritten). -/
opaque Config.raceStoreByte : Nat → Byte

/-- FREE VALUE (log 13): how many leading bytes of a frame reached the line when the sink answered with
an error, or when reset cut the request off (42_tx_framer.md R177, U7: any prefix). A count past the frame's
end stands for the whole frame. -/
opaque Config.linePrefix : Nat → Nat

/-- FREE VALUE (log 25): the words of a byte source that never falls silent, by their number
(60_exceptions.md R218, U14: any stream). -/
opaque Config.streamWord : Nat → SrcWord

end Sys2Proof
end

