-- ==== Sys2Proof/Machine/Crc8.lean ====
section
/-! DEFINITION. The CRC-8 function unit (40_crc8.md): stateless, used by both engines. -/

namespace Sys2Proof.Machine

/-- One shift-XOR step of the CRC register (40_crc8.md R100). -/
def crc8Shift (c : Byte) : Byte := if c.msb then (c <<< 1) ^^^ Config.poly else c <<< 1

/-- `crc8_update(c, b)` (40_crc8.md R100): fold the byte in, then eight shift steps. -/
def crc8Update (c b : Byte) : Byte :=
  crc8Shift (crc8Shift (crc8Shift (crc8Shift (crc8Shift (crc8Shift (crc8Shift (crc8Shift (c ^^^ b))))))))

/-- `crc8_block(s, c0)` (40_crc8.md R101). -/
def crc8Block (s : List Byte) (c0 : Byte := Config.crcInit) : Byte := s.foldl crc8Update c0

end Sys2Proof.Machine
end

