-- ==== Sys2Proof/Machine/Operands.lean ====
section
/-! DEFINITION. The operand forms: the fields of each port word (30_encoding.md R81 to R87), the words put
together from their fields, and the two bytes of a 16-bit length (R72, 20_memory.md R56). -/

namespace Sys2Proof

/-- Bit 8 of a `src` word: the source reports an error (R83). -/
def srcError (w : SrcWord) : Bool := w.getLsbD 8

/-- Bits 7:0 of a `src` word: the byte (R83). -/
def srcByte (w : SrcWord) : Byte := w.extractLsb' 0 8

/-- The `src` word `ebbbbbbbb` (R83). -/
def srcWord (error : Bool) (b : Byte) : SrcWord :=
  (BitVec.ofBool error).setWidth 9 <<< 8 ||| b.setWidth 9

/-- Bit 16 of a `tx_req` word: payload present (R85). -/
def txReqPresent (w : TxReqWord) : Bool := w.getLsbD 16

/-- Bits 15:0 of a `tx_req` word: the payload length (R85). -/
def txReqLen (w : TxReqWord) : Half := w.extractLsb' 0 16

/-- The `tx_req` word `pllllllllllllllll` (R85). -/
def txReqWord (present : Bool) (len : Half) : TxReqWord :=
  (BitVec.ofBool present).setWidth 17 <<< 16 ||| len.setWidth 17

/-- Bit 17 of a `sink_resp` word: the sink reports an error (R87). -/
def sinkError (w : SinkWord) : Bool := w.getLsbD 17

/-- Bits 16:0 of a `sink_resp` word: the count of bytes written (R87). -/
def sinkCount (w : SinkWord) : BitVec 17 := w.extractLsb' 0 17

/-- The `sink_resp` word `ennnnnnnnnnnnnnnnn` (R87). -/
def sinkWord (error : Bool) (count : BitVec 17) : SinkWord :=
  (BitVec.ofBool error).setWidth 18 <<< 17 ||| count.setWidth 18

/-- The low byte of a 16-bit length (R72). -/
def lowByte (v : Half) : Byte := v.extractLsb' 0 8

/-- The high byte of a 16-bit length (R72). -/
def highByte (v : Half) : Byte := v.extractLsb' 8 8

/-- The 16-bit length `{hi, lo}` (R72). -/
def halfOf (hi lo : Byte) : Half := lo.setWidth 16 ||| hi.setWidth 16 <<< 8

/-- The statuses of an `rx_resp` (R82); codes 2 and 3 are never produced (R203). -/
inductive RxStatus where
  | ok
  | ioError
deriving DecidableEq, Repr

/-- The code of an `rx_resp` status (R82). -/
def rxStatusCode : RxStatus → BitVec 2
  | .ok => 0
  | .ioError => 1

/-- The `rx_resp` word `ssllllllllllllllll` (R82). -/
def rxRespWord (status : RxStatus) (len : Half) : RxRespWord :=
  (rxStatusCode status).setWidth 18 <<< 16 ||| len.setWidth 18

/-- The statuses of a `tx_resp` (R86); codes 5 to 7 are never produced (R204). -/
inductive TxStatus where
  | ok
  | noPayload
  | frameTooLarge
  | shortWrite
  | sinkError
deriving DecidableEq, Repr

/-- The code of a `tx_resp` status, the whole word (R86). -/
def txStatusCode : TxStatus → TxRespWord
  | .ok => 0
  | .noPayload => 1
  | .frameTooLarge => 2
  | .shortWrite => 3
  | .sinkError => 4

end Sys2Proof
end

