-- ==== Sys2Proof/Machine/Frame.lean ====
section
/-! DEFINITION. The frame wire format: `build_frame` (42_tx_framer.md R173) and what a well-formed frame is
(30_encoding.md R70 to R77). -/

namespace Sys2Proof.Machine

/-- The three bytes that the header CRC covers: start marker and length (30_encoding.md R73). -/
def frameHeader (len : Half) : List Byte := [Config.startMarker, lowByte len, highByte len]

/-- The five bytes before the payload: header, header CRC, data-start marker (30_encoding.md R70). -/
def framePrefix (len : Half) : List Byte :=
  frameHeader len ++ [crc8Block (frameHeader len), Config.dataStartMarker]

/-- `build_frame(P)` (42_tx_framer.md R173). -/
def buildFrame (p : List Byte) : List Byte :=
  let body := framePrefix (BitVec.ofNat 16 p.length) ++ p
  body ++ [crc8Block body, Config.stopMarker]

/-- The length that a frame's bytes 1 and 2 declare (30_encoding.md R72). -/
def declaredLen (f : List Byte) : Half := halfOf (f.getD 2 0) (f.getD 1 0)

/-- `WF(s)`, its seven conditions in order (30_encoding.md R76). -/
def isFrame (f : List Byte) : Bool :=
  let n := (declaredLen f).toNat
  decide (7 ≤ f.length)
    && f.getD 0 0 == Config.startMarker
    && f.length == n + 7
    && f.getD 3 0 == crc8Block (f.take 3)
    && f.getD 4 0 == Config.dataStartMarker
    && f.getD (5 + n) 0 == crc8Block (f.take (5 + n))
    && f.getD (6 + n) 0 == Config.stopMarker

/-- The payload of a frame, its bytes `5` to `4 + L` (30_encoding.md R76). -/
def payloadOf (f : List Byte) : List Byte := (f.drop 5).take (declaredLen f).toNat

/-- A frame is acceptable for a capacity (30_encoding.md R77). -/
def acceptable (f : List Byte) (cap : Half) : Bool := isFrame f && decide (declaredLen f ≤ cap)

end Sys2Proof.Machine
end

