-- ==== Sys2Proof/Machine/Flags.lean ====
section
/-! DEFINITION. LLF has no flag register; these are the comparisons of 10_state.md R34, computed from the
registers and the word and stored nowhere. -/

namespace Sys2Proof

/-- The marker match of WAIT_START (R34, 30_encoding.md R89). -/
def isStartMarker (b : Byte) : Bool := b == Config.startMarker

/-- The marker match of DATA_START (R34, R89). -/
def isDataStartMarker (b : Byte) : Bool := b == Config.dataStartMarker

/-- The marker match of STOP (R34, R89). -/
def isStopMarker (b : Byte) : Bool := b == Config.stopMarker

/-- `b = RX_HCRC` in HDR_CRC and `b = RX_FCRC` in FULL_CRC (R34, 41_rx_framer.md R135: exact, all 8 bits). -/
def crcOk (b crc : Byte) : Bool := b == crc

/-- `RX_LEN ≤ RX_CAP`, unsigned (R34, R135). -/
def lenOk (len cap : BitVec 16) : Bool := decide (len ≤ cap)

/-- `RX_IDX < RX_CAP`, unsigned (R34, R132). -/
def idxWithin (idx cap : BitVec 16) : Bool := decide (idx < cap)

/-- Whether the payload byte of index `idx` is the last one (41_rx_framer.md R134). -/
def lastPayloadByte (idx len : BitVec 16) : Bool := idx + 1 == len

/-- The frame size `L + 7`, which does not wrap (42_tx_framer.md R172: computed at 17 bits). -/
@[reducible] def frameSize (len : BitVec 16) : Nat := len.toNat + Config.frameOverhead

/-- The transmit check of TX_REQ_NOPAY: payload absent and length not 0 (R171). -/
def payloadMissing (present : Bool) (len : BitVec 16) : Bool := !present && len != 0

/-- The transmit check of TX_REQ_TOOBIG: `L + 7 > TX_FRAME_MAX` (R172). -/
def frameTooBig (len : BitVec 16) (frameMax : Nat) : Bool := decide (frameMax < frameSize len)

/-- The transmit check of the sink's answer: `n = TX_LEN + 7`, at 17 bits, exactly (R175). -/
def countMatches (count : BitVec 17) (len : BitVec 16) : Bool := count.toNat == frameSize len

end Sys2Proof
end

