-- ==== Sys2Proof/Syntax.lean ====
section
/-! DEFINITION. What can be asked of LLF: its operations (one constructor of `Instr` for each row of
spec/opcode_table.json), the words of its input ports, and the events of an event script. -/

namespace Sys2Proof

/-- The operations of 30_encoding.md R89 and R90, with RX_REQ (R120) and RESET (R230). The operands are the
bits of the port word that the operation's encoding leaves free. -/
inductive Instr where
  /-- RX_IOERR (41_rx_framer.md R141): a source word with the error flag; its low byte is ignored (R83). -/
  | rxIoerr (ignored : Byte)
  /-- RX_WS_START (R123): the start marker, in WAIT_START. -/
  | rxWsStart
  /-- RX_WS_SKIP (R124): any other byte, in WAIT_START. -/
  | rxWsSkip (b : Byte)
  /-- RX_LEN_LOW (R125): the low length byte. -/
  | rxLenLow (b : Byte)
  /-- RX_LEN_HIGH (R126): the high length byte. -/
  | rxLenHigh (b : Byte)
  /-- RX_HDR_OK (R127): the header CRC byte matches. -/
  | rxHdrOk (b : Byte)
  /-- RX_HDR_BAD (R128): the header CRC byte does not match. -/
  | rxHdrBad (b : Byte)
  /-- RX_DS_OK (R129): the data-start marker, with a payload to come. -/
  | rxDsOk
  /-- RX_DS_OK0 (R130): the data-start marker, with an empty payload. -/
  | rxDsOk0
  /-- RX_DS_BAD (R131): not the data-start marker. -/
  | rxDsBad (b : Byte)
  /-- RX_PAY_STORE (R132): a payload byte within capacity. -/
  | rxPayStore (b : Byte)
  /-- RX_PAY_DROP (R133): a payload byte beyond capacity. -/
  | rxPayDrop (b : Byte)
  /-- RX_FC_BADCRC (R137): the full CRC does not match. -/
  | rxFcBadcrc (b : Byte)
  /-- RX_FC_BADLEN (R138): the full CRC matches, the length exceeds the capacity. -/
  | rxFcBadlen (b : Byte)
  /-- RX_FC_OK (R136): the full CRC matches, the length is within the capacity. -/
  | rxFcOk (b : Byte)
  /-- RX_STOP_OK (R139): the stop marker. -/
  | rxStopOk
  /-- RX_STOP_BAD (R140): not the stop marker. -/
  | rxStopBad (b : Byte)
  /-- RX_REQ (R120): arm the receiver with a capacity. -/
  | rxReq (capacity : Half)
  /-- TX_REQ_NOPAY (42_tx_framer.md R171): no payload present and a length other than 0. -/
  | txReqNopay (len : Half)
  /-- TX_REQ_TOOBIG (R172): the frame exceeds `TX_FRAME_MAX`. -/
  | txReqToobig (present : Bool) (len : Half)
  /-- TX_REQ_SEND (R174): build the frame and hand it to the sink. -/
  | txReqSend (present : Bool) (len : Half)
  /-- TX_SINK_OK (R175): the sink took the whole frame. -/
  | txSinkOk (count : BitVec 17)
  /-- TX_SINK_SHORT (R176): the sink reports another count. -/
  | txSinkShort (count : BitVec 17)
  /-- TX_SINK_ERR (R177): the sink reports an error; the low 17 bits are ignored (R87). -/
  | txSinkErr (ignored : BitVec 17)
  /-- TX_SINK_STRAY (R178): a sink answer while IDLE, whatever its word. -/
  | txSinkStray (error : Bool) (count : BitVec 17)
  /-- RESET (70_reset_and_hazards.md R230). -/
  | reset
deriving DecidableEq, Repr

/-- A word on one of LLF's input ports (30_encoding.md R80). -/
inductive PortWord where
  /-- `rst`, no data (R88). -/
  | rst
  /-- `rx_req`, the capacity (R81). -/
  | rxReq (w : Half)
  /-- `src`, an error flag and a byte (R83). -/
  | src (w : SrcWord)
  /-- `tx_req`, payload present and length (R85). -/
  | txReq (w : TxReqWord)
  /-- `sink_resp`, an error flag and a count (R87). -/
  | sinkResp (w : SinkWord)
deriving DecidableEq, Repr

/-- An input event of a run (30_encoding.md R93), and the host actions of 20_memory.md R66 and
60_exceptions.md R207, which are not operations of LLF. -/
inductive Event where
  /-- A neighbour offers a word on an input port. -/
  | port (w : PortWord)
  /-- `txmem`: the host sets the transmit payload memory to these bytes (R93). -/
  | txMem (bytes : List Byte)
  /-- The host reads index `i` of the receive buffer (R66). -/
  | hostRead (i : Half)
  /-- The host writes index `i` of the receive buffer (R66). -/
  | hostWrite (i : Half) (b : Byte)
  /-- The host takes the pending `rx_resp` (R207). -/
  | takeRxResp
  /-- The host takes the pending `tx_resp` (R207). -/
  | takeTxResp
  /-- It is the receive engine's turn: it takes the oldest word waiting in the source (41_rx_framer.md R122,
  60_exceptions.md R215). -/
  | sourceTurn
  /-- The sink answers a write made before a reset (70_reset_and_hazards.md R231). Its word has the bits of any
  `sink_resp`; which write it answers is the sink's to know (log 24). -/
  | staleSinkResp (w : SinkWord)
deriving DecidableEq, Repr

/-- What the environment goes on with after the script's last line (60_exceptions.md R218; log 25). -/
inductive Endless where
  /-- Nothing more. -/
  | stops
  /-- The same lines, again and again. -/
  | repeats (lines : List Event)
  /-- A source word after another, of a stream without an end; word `n` is next. -/
  | streams (n : Nat)
deriving DecidableEq, Repr

end Sys2Proof
end

