-- ==== Sys2Proof/WellFormed.lean ====
section
/-! DEFINITION. Which terms of `Instr` stand for a word at all: the conditions of 30_encoding.md R89 and R90
that speak of the word alone. The conditions that speak of the registers are `selects` in Decode. -/

namespace Sys2Proof

/-- The operand conditions of R89 and R90: a byte that is "any other" than a marker is not that marker; a
`tx_req` word with no payload present and a length other than 0 belongs to TX_REQ_NOPAY; a count that is a frame's
size is 7 to 65542 (R71). -/
def Instr.wellFormed : Instr → Bool
  | .rxWsSkip b => b != Config.startMarker
  | .rxDsBad b => b != Config.dataStartMarker
  | .rxStopBad b => b != Config.stopMarker
  | .txReqNopay len => len != 0
  | .txReqToobig present len => present || len == 0
  | .txReqSend present len => present || len == 0
  | .txSinkOk count => decide (7 ≤ count.toNat) && decide (count.toNat ≤ 65542)
  | .rxIoerr _ => true
  | .rxWsStart => true
  | .rxLenLow _ => true
  | .rxLenHigh _ => true
  | .rxHdrOk _ => true
  | .rxHdrBad _ => true
  | .rxDsOk => true
  | .rxDsOk0 => true
  | .rxPayStore _ => true
  | .rxPayDrop _ => true
  | .rxFcBadcrc _ => true
  | .rxFcBadlen _ => true
  | .rxFcOk _ => true
  | .rxStopOk => true
  | .rxReq _ => true
  | .txSinkShort _ => true
  | .txSinkErr _ => true
  | .txSinkStray _ _ => true
  | .reset => true

end Sys2Proof
end

