-- ==== Sys2Proof/Decode.lean ====
section
/-! DEFINITION. The operation map of 30_encoding.md R89 and R90: which operation an offered port word is, in
the state of the engine it is offered to. A word that its engine does not take is rejected by name. After the
decoder stand the encoder (the port word of an operation) and `selects` (the conditions of each operation's
own Encoding clause in 41_rx_framer.md, 42_tx_framer.md and 70_reset_and_hazards.md). -/

namespace Sys2Proof

/-- The eight states of the receive FSM (10_state.md R21), in the order of their codes. -/
inductive RxSt where
  | waitStart
  | lenLow
  | lenHigh
  | hdrCrc
  | dataStart
  | payload
  | fullCrc
  | stop
deriving DecidableEq, Repr

/-- The code of a receive state (10_state.md R21). -/
def rxStCode : RxSt → BitVec 3
  | .waitStart => 0
  | .lenLow => 1
  | .lenHigh => 2
  | .hdrCrc => 3
  | .dataStart => 4
  | .payload => 5
  | .fullCrc => 6
  | .stop => 7

/-- The two states of the transmit engine (10_state.md R30). -/
inductive TxSt where
  | idle
  | waitSink
deriving DecidableEq, Repr

/-- The code of a transmit state (10_state.md R30). -/
def txStCode : TxSt → BitVec 1
  | .idle => 0
  | .waitSink => 1

/-- The registers and the parameter that R89 and R90 read to choose an operation. -/
structure Ctx where
  rxArmed : Bool
  rxSt : RxSt
  rxLen : Half
  rxIdx : Half
  rxHcrc : Byte
  rxFcrc : Byte
  rxCap : Half
  txSt : TxSt
  txLen : Half
  txFrameMax : Nat
deriving DecidableEq, Repr

/-- Why an offered word is no operation now: its engine does not take it. No word is illegal (R91). -/
inductive Reject where
  /-- An `rx_req` while `RX_ARMED = 1`: held (R81, 41_rx_framer.md R120). -/
  | rxReqHeld
  /-- A `src` word while `RX_ARMED = 0`: it stays in the source (R83, R122). -/
  | srcNotTaken
  /-- A `tx_req` while WAIT_SINK: held (R85, R90, 42_tx_framer.md R170). -/
  | txReqHeld
deriving DecidableEq, Repr

/-- The receive rows of R89, tried top to bottom. -/
def decodeSrc (k : Ctx) (w : SrcWord) : Instr :=
  let b := srcByte w
  if srcError w then .rxIoerr b
  else match k.rxSt with
    | .waitStart => if isStartMarker b then .rxWsStart else .rxWsSkip b
    | .lenLow => .rxLenLow b
    | .lenHigh => .rxLenHigh b
    | .hdrCrc => if crcOk b k.rxHcrc then .rxHdrOk b else .rxHdrBad b
    | .dataStart =>
      if isDataStartMarker b then (if k.rxLen = 0 then .rxDsOk0 else .rxDsOk) else .rxDsBad b
    | .payload => if idxWithin k.rxIdx k.rxCap then .rxPayStore b else .rxPayDrop b
    | .fullCrc =>
      if crcOk b k.rxFcrc then (if lenOk k.rxLen k.rxCap then .rxFcOk b else .rxFcBadlen b)
      else .rxFcBadcrc b
    | .stop => if isStopMarker b then .rxStopOk else .rxStopBad b

/-- The `tx_req` rows of R90 in IDLE, tried top to bottom. -/
def decodeTxReq (k : Ctx) (w : TxReqWord) : Instr :=
  if payloadMissing (txReqPresent w) (txReqLen w) then .txReqNopay (txReqLen w)
  else if frameTooBig (txReqLen w) k.txFrameMax then .txReqToobig (txReqPresent w) (txReqLen w)
  else .txReqSend (txReqPresent w) (txReqLen w)

/-- The `sink_resp` rows of R90, for an answer to the frame in flight or one that comes in IDLE. A stale answer, to a
write that a reset cut off, selects no row in WAIT_SINK: the step ignores it (70_reset_and_hazards.md R231; log 24). -/
def decodeSinkResp (k : Ctx) (w : SinkWord) : Instr :=
  match k.txSt with
  | .idle => .txSinkStray (sinkError w) (sinkCount w)
  | .waitSink =>
    if sinkError w then .txSinkErr (sinkCount w)
    else if countMatches (sinkCount w) k.txLen then .txSinkOk (sinkCount w)
    else .txSinkShort (sinkCount w)

/-- The operation map: the operation an offered word is, or why its engine does not take it. -/
def decode (k : Ctx) : PortWord → Except Reject Instr
  | .rst => .ok .reset
  | .rxReq w => if k.rxArmed then .error .rxReqHeld else .ok (.rxReq w)
  | .src w => if k.rxArmed then .ok (decodeSrc k w) else .error .srcNotTaken
  | .txReq w =>
    match k.txSt with
    | .idle => .ok (decodeTxReq k w)
    | .waitSink => .error .txReqHeld
  | .sinkResp w => .ok (decodeSinkResp k w)

/-- The port word of an operation, from its encoding in the opcode table. -/
def encode : Instr → PortWord
  | .rxIoerr x => .src (srcWord true x)
  | .rxWsStart => .src (srcWord false Config.startMarker)
  | .rxWsSkip b => .src (srcWord false b)
  | .rxLenLow b => .src (srcWord false b)
  | .rxLenHigh b => .src (srcWord false b)
  | .rxHdrOk b => .src (srcWord false b)
  | .rxHdrBad b => .src (srcWord false b)
  | .rxDsOk => .src (srcWord false Config.dataStartMarker)
  | .rxDsOk0 => .src (srcWord false Config.dataStartMarker)
  | .rxDsBad b => .src (srcWord false b)
  | .rxPayStore b => .src (srcWord false b)
  | .rxPayDrop b => .src (srcWord false b)
  | .rxFcBadcrc b => .src (srcWord false b)
  | .rxFcBadlen b => .src (srcWord false b)
  | .rxFcOk b => .src (srcWord false b)
  | .rxStopOk => .src (srcWord false Config.stopMarker)
  | .rxStopBad b => .src (srcWord false b)
  | .rxReq c => .rxReq c
  | .txReqNopay len => .txReq (txReqWord false len)
  | .txReqToobig present len => .txReq (txReqWord present len)
  | .txReqSend present len => .txReq (txReqWord present len)
  | .txSinkOk n => .sinkResp (sinkWord false n)
  | .txSinkShort n => .sinkResp (sinkWord false n)
  | .txSinkErr x => .sinkResp (sinkWord true x)
  | .txSinkStray e n => .sinkResp (sinkWord e n)
  | .reset => .rst

/-- The receive engine is armed and in the given state: what every row of R89 asks. -/
def rxIn (k : Ctx) (st : RxSt) : Bool := k.rxArmed && k.rxSt == st

/-- The Encoding clause of each operation's rule: the states and the words in which it is the operation. -/
def selects (k : Ctx) (i : Instr) : Bool :=
  i.wellFormed && match i with
    | .rxIoerr _ => k.rxArmed
    | .rxWsStart => rxIn k .waitStart
    | .rxWsSkip _ => rxIn k .waitStart
    | .rxLenLow _ => rxIn k .lenLow
    | .rxLenHigh _ => rxIn k .lenHigh
    | .rxHdrOk b => rxIn k .hdrCrc && crcOk b k.rxHcrc
    | .rxHdrBad b => rxIn k .hdrCrc && !crcOk b k.rxHcrc
    | .rxDsOk => rxIn k .dataStart && k.rxLen != 0
    | .rxDsOk0 => rxIn k .dataStart && k.rxLen == 0
    | .rxDsBad _ => rxIn k .dataStart
    | .rxPayStore _ => rxIn k .payload && idxWithin k.rxIdx k.rxCap
    | .rxPayDrop _ => rxIn k .payload && !idxWithin k.rxIdx k.rxCap
    | .rxFcBadcrc b => rxIn k .fullCrc && !crcOk b k.rxFcrc
    | .rxFcBadlen b => rxIn k .fullCrc && crcOk b k.rxFcrc && !lenOk k.rxLen k.rxCap
    | .rxFcOk b => rxIn k .fullCrc && crcOk b k.rxFcrc && lenOk k.rxLen k.rxCap
    | .rxStopOk => rxIn k .stop
    | .rxStopBad _ => rxIn k .stop
    | .rxReq _ => !k.rxArmed
    | .txReqNopay _ => k.txSt == .idle
    | .txReqToobig _ len => k.txSt == .idle && frameTooBig len k.txFrameMax
    | .txReqSend _ len => k.txSt == .idle && !frameTooBig len k.txFrameMax
    | .txSinkOk n => k.txSt == .waitSink && countMatches n k.txLen
    | .txSinkShort n => k.txSt == .waitSink && !countMatches n k.txLen
    | .txSinkErr _ => k.txSt == .waitSink
    | .txSinkStray _ _ => k.txSt == .idle
    | .reset => true

/-! ## Words of the opcode table

The table gives a row's bits and no port, and most of its rows have the same bits: what tells them apart is
the state (log 16). A table word is therefore read on one port, chosen by its size, in one context. -/

/-- The port word of a table word (log 16): no bytes is `rst`; two bytes are a `src` word where the bits above
its width (and above the table's own `width` mark, bit 9) are zero, and else an `rx_req` word; three bytes are
a `tx_req` word where they fit its 17 bits, and else a `sink_resp` word. -/
def tablePortWord (nbits w : Nat) : Option PortWord :=
  if nbits ≤ 8 then some .rst
  else if nbits ≤ 16 then
    if w < 1024 then some (.src (BitVec.ofNat 9 w)) else some (.rxReq (BitVec.ofNat 16 w))
  else if nbits ≤ 24 then
    if w < 131072 then some (.txReq (BitVec.ofNat 17 w)) else some (.sinkResp (BitVec.ofNat 18 w))
  else none

/-- The receive state a table `src` word is read in: a marker in the state that waits for it, any other word
in WAIT_START (log 16). -/
def tableRxSt (w : SrcWord) : RxSt :=
  if srcError w then .waitStart
  else if isDataStartMarker (srcByte w) then .dataStart
  else if isStopMarker (srcByte w) then .stop
  else .waitStart

/-- The length a table `sink_resp` word is read against: the one it completes where there is one (log 16). -/
def tableTxLen (w : SinkWord) : Half :=
  if 7 ≤ (sinkCount w).toNat ∧ (sinkCount w).toNat ≤ 65542 then
    BitVec.ofNat 16 ((sinkCount w).toNat - 7)
  else 0

/-- The context a table word is read in (log 16). -/
def tableCtx : PortWord → Ctx
  | .rst => ⟨false, .waitStart, 0, 0, 0, 0, 0, .idle, 0, Config.txFrameMaxDefault⟩
  | .rxReq _ => ⟨false, .waitStart, 0, 0, 0, 0, 0, .idle, 0, Config.txFrameMaxDefault⟩
  | .src w => ⟨true, tableRxSt w, 0, 0, 0, 0, 0, .idle, 0, Config.txFrameMaxDefault⟩
  | .txReq _ => ⟨false, .waitStart, 0, 0, 0, 0, 0, .idle, 0, Config.txFrameMaxDefault⟩
  | .sinkResp w =>
    ⟨false, .waitStart, 0, 0, 0, 0, 0, .waitSink, tableTxLen w, Config.txFrameMaxDefault⟩

/-- The instruction the decoder reads from a table word. -/
def decodeTableWord (nbits w : Nat) : Option Instr :=
  match tablePortWord nbits w with
  | none => none
  | some pw =>
    match decode (tableCtx pw) pw with
    | .ok i => some i
    | .error _ => none

end Sys2Proof
end

