-- ==== Sys2Proof/Machine/Memory.lean ====
section
/-! DEFINITION. The memory the host provides: bytes at platform addresses, listed in one canonical form. An
address that is not listed holds no written byte; what it reads as is `Config.powerOnByte` (log 8). -/

namespace Sys2Proof.Machine

/-- Written bytes, by strictly rising address. The form keeps "nothing has written here" (no entry) apart from
every written byte, so equal memories are equal lists. -/
abbrev Memory := List Host.Cell

/-- The canonical form: addresses strictly rise. -/
abbrev Memory.wf (m : Memory) : Prop := m.Pairwise (fun x y => x.1 < y.1)

/-- The byte written at an address, if one was. -/
def Memory.peek : Memory → Nat → Option Byte
  | [], _ => none
  | (c, x) :: m, a => if a = c then some x else Memory.peek m a

/-- Write one byte, the only access size there is (20_memory.md R60). -/
def Memory.put : Memory → Nat → Byte → Memory
  | [], a, b => [(a, b)]
  | (c, x) :: m, a, b =>
    if a < c then (a, b) :: (c, x) :: m
    else if a = c then (a, b) :: m
    else (c, x) :: Memory.put m a b

/-- Read one byte: the one written there, else what memory held at power-on (10_state.md R38, U2, U3). -/
def Memory.read (m : Memory) (a : Nat) : Byte := (m.peek a).getD (Config.powerOnByte a)

end Sys2Proof.Machine
end

