-- ==== Sys2Proof/Machine/State.lean ====
section
/-! DEFINITION. The state: every register of 10_state.md, the memory, what waits at each port, the parameters a
model takes, and what the ports carried out. Plain data throughout. -/

namespace Sys2Proof.Machine

/-- Everything the spec gives the machine; INVENTORY.md names each field's rule and its reset value. -/
structure State where
  /-- The first reset has been applied (70_reset_and_hazards.md R233). -/
  resetDone : Bool
  /-- RX_ARMED (10_state.md R20). -/
  rxArmed : Bool
  /-- RX_ST (R21). -/
  rxSt : RxSt
  /-- RX_LEN (R23). -/
  rxLen : Half
  /-- RX_IDX (R24). -/
  rxIdx : Half
  /-- RX_HCRC (R25). -/
  rxHcrc : Byte
  /-- RX_FCRC (R26). -/
  rxFcrc : Byte
  /-- RX_CAP (R27). -/
  rxCap : Half
  /-- TX_ST (R30). -/
  txSt : TxSt
  /-- TX_LEN (R31). -/
  txLen : Half
  /-- TX_FRAME (R32). -/
  txFrame : List Byte
  /-- The parameter `TX_FRAME_MAX` (00_scope.md R6); no step writes it. -/
  txFrameMax : Nat
  /-- The parameter: how many bytes the host's receive buffer has (20_memory.md R51); no step writes it. -/
  rxBufSize : Nat
  /-- The parameter: the address of receive-buffer index 0 (20_memory.md R63); no step writes it. -/
  rxBase : Nat
  /-- The parameter: the address of payload offset 0 (20_memory.md R63); no step writes it. -/
  txBase : Nat
  /-- The receive buffer and the transmit payload memory, by address (20_memory.md R50, R63). -/
  mem : Memory
  /-- The model's own: the addresses of the receive buffer that the host has written since the request in progress was
  armed, where its write and the engine's race (20_memory.md R66, U5; log 10). -/
  raced : List Nat
  /-- Words waiting in the byte source, oldest first (20_memory.md R50, 41_rx_framer.md R122). -/
  source : List SrcWord
  /-- Held `rx_req` words, oldest first (41_rx_framer.md R120). -/
  rxReqs : List Half
  /-- Held `tx_req` words, oldest first (42_tx_framer.md R170). -/
  txReqs : List TxReqWord
  /-- The `rx_resp` the host has not taken yet (60_exceptions.md R207). -/
  rxPending : Option RxRespWord
  /-- The `tx_resp` the host has not taken yet (60_exceptions.md R207). -/
  txPending : Option TxRespWord
  /-- The `rx_resp` transactions made so far, oldest first (30_encoding.md R82). -/
  rxResps : List RxRespWord
  /-- The `tx_resp` transactions made so far, oldest first (30_encoding.md R86). -/
  txResps : List TxRespWord
  /-- The `rxbuf_wr` transactions made so far, oldest first (30_encoding.md R84). -/
  rxBufWrs : List (Half × Byte)
  /-- The frames handed to the byte sink so far, oldest first (30_encoding.md R87). -/
  sinkWrites : List (List Byte)
  /-- How many writes to the sink a reset cut off whose answers may still arrive (70_reset_and_hazards.md R231; log 24). -/
  cutOffWrites : Nat
  /-- The frame bytes that are known to have reached the line, oldest first (70_reset_and_hazards.md R240). -/
  line : List Byte
  /-- The model's own: what host reads of the receive buffer gave, oldest first (20_memory.md R66). -/
  hostReads : List (Half × Byte)
  /-- The model's own: the input events still to come (30_encoding.md R93). -/
  script : List Event
  /-- The model's own: what the environment goes on with after the script (60_exceptions.md R218, log 25). -/
  endless : Endless
  /-- The model's own: which draw of a free value is next (log 18). -/
  free : Nat
deriving DecidableEq, Repr

/-- Why a run is an error. LLF itself raises none (60_exceptions.md R200). -/
inductive Fault where
  /-- Raised by a host read or write of the receive buffer at an index that the host's own buffer does not have
  (20_memory.md R51). Safe: the model stops where the spec says nothing. -/
  | hostOutsideBuffer
deriving DecidableEq, Repr

/-- Why a step has no meaning. -/
inductive Refusal where
  /-- Raised by `exec` for an instruction without a meaning. Safe. No arm raises it. -/
  | notModelled (mnemonic : String)
  /-- Raised by `exec` for an operation in a state for which 30_encoding.md R89 and R90 do not select it; no
  step reaches it, because a step runs what the decoder selects. Safe. -/
  | notSelected
  /-- Raised by a step before the first reset (70_reset_and_hazards.md R233, U1: refuse). Safe. -/
  | beforeFirstReset
  /-- Raised by RX_REQ and RX_PAY_STORE when the receive buffer has fewer bytes than the capacity
  (70_reset_and_hazards.md R237, U11: refuse). Safe. -/
  | receiveBufferTooSmall
  /-- Raised by a host write that changes payload bytes of a transmit request that waits or is in flight
  (70_reset_and_hazards.md R239, U12: refuse). Safe. -/
  | payloadDutyBroken
deriving DecidableEq, Repr

/-- What a step answers. -/
abbrev Result := Host.Outcome State Fault Refusal

/-- The machine right after reset (10_state.md R38, 70_reset_and_hazards.md R230, R232); the values of the
parameters and of the model's own fields are log 1, 5 to 8, 10, 12, 13, 18, 19, 24 and 25. -/
def State.reset : State where
  resetDone := true
  rxArmed := false
  rxSt := .waitStart
  rxLen := 0
  rxIdx := 0
  rxHcrc := 0
  rxFcrc := 0
  rxCap := 0
  txSt := .idle
  txLen := 0
  txFrame := []
  txFrameMax := Config.txFrameMaxDefault
  rxBufSize := 65536
  rxBase := 0
  txBase := 65536
  mem := []
  raced := []
  source := []
  rxReqs := []
  txReqs := []
  rxPending := none
  txPending := none
  rxResps := []
  txResps := []
  rxBufWrs := []
  sinkWrites := []
  cutOffWrites := 0
  line := []
  hostReads := []
  script := []
  endless := .stops
  free := 0

/-- What the decoder reads of the state. -/
@[reducible] def State.ctx (s : State) : Ctx where
  rxArmed := s.rxArmed
  rxSt := s.rxSt
  rxLen := s.rxLen
  rxIdx := s.rxIdx
  rxHcrc := s.rxHcrc
  rxFcrc := s.rxFcrc
  rxCap := s.rxCap
  txSt := s.txSt
  txLen := s.txLen
  txFrameMax := s.txFrameMax

end Sys2Proof.Machine
end

