-- ==== Sys2Proof/Machine/Ops.lean ====
section
/-! DEFINITION. The operations over the state that the meanings share: memory access, giving up a candidate,
giving a response, ending a request. LLF takes no exception and returns from none (60_exceptions.md R200, R208,
R209): in their place stand `abandon`, for a framing error, and the two ways a request ends. -/

namespace Sys2Proof.Machine

/-- An operation runs where 30_encoding.md R89 and R90 select it (log 15). -/
def perform (i : Instr) (s : State) (o : Result) : Result :=
  if selects s.ctx i then o else .refused .notSelected

/-- The host's duty on the receive buffer: at least the capacity in bytes (70_reset_and_hazards.md R237). -/
def withBuffer (cap : Half) (s : State) (o : Result) : Result :=
  if cap.toNat ≤ s.rxBufSize then o else .refused .receiveBufferTooSmall

/-- The address of a receive-buffer index (20_memory.md R63). -/
def State.rxAddr (s : State) (i : Half) : Nat := s.rxBase + i.toNat

/-- What the byte at a receive-buffer index holds after the engine stores to it: the byte stored (20_memory.md R52),
or, where the host wrote that byte in the same request, a free value, for the host's write may stand (R66, U5; log 10). -/
def State.storedByte (s : State) (i : Half) (b : Byte) : Byte :=
  if s.rxAddr i ∈ s.raced then Config.raceStoreByte s.rxBufWrs.length else b

/-- `RxBufWrite(i, b)`, the `rxbuf_wr` transaction (20_memory.md R52, 30_encoding.md R84). -/
def State.rxBufWrite (i : Half) (b : Byte) (s : State) : State :=
  { s with mem := s.mem.put (s.rxAddr i) (s.storedByte i b), rxBufWrs := s.rxBufWrs ++ [(i, b)] }

/-- `TxPayRead(i)` (20_memory.md R55). -/
def State.txPayRead (s : State) (off : Nat) : Byte := s.mem.read (s.txBase + off)

/-- The payload of a request: `TxPayRead` at offsets `0` to `L - 1`, in order (20_memory.md R55). -/
def State.readPayload (s : State) (len : Half) : List Byte := (List.range len.toNat).map s.txPayRead

/-- `abandon()` (41_rx_framer.md R121). -/
def State.abandon (s : State) : State :=
  { s with rxSt := .waitStart, rxLen := 0, rxIdx := 0, rxHcrc := 0, rxFcrc := 0 }

/-- Give an `rx_resp`: it is pending until the host takes it (30_encoding.md R82, 60_exceptions.md R207). -/
def State.giveRx (w : RxRespWord) (s : State) : State :=
  { s with rxPending := some w, rxResps := s.rxResps ++ [w] }

/-- Give a `tx_resp`: it is pending until the host takes it (30_encoding.md R86, 60_exceptions.md R207). -/
def State.giveTx (w : TxRespWord) (s : State) : State :=
  { s with txPending := some w, txResps := s.txResps ++ [w] }

/-- A receive request ends: respond, disarm, and clear the candidate (41_rx_framer.md R139, R141). -/
def State.endRx (status : RxStatus) (len : Half) (s : State) : State :=
  { (s.giveRx (rxRespWord status len)).abandon with rxArmed := false }

/-- Fold a payload byte into the full CRC and count it (41_rx_framer.md R132, R133, R134). -/
def State.countPayload (b : Byte) (s : State) : State :=
  { s with
    rxFcrc := crc8Update s.rxFcrc b
    rxIdx := s.rxIdx + 1
    rxSt := if lastPayloadByte s.rxIdx s.rxLen then .fullCrc else s.rxSt }

/-- Give a transmit response (30_encoding.md R86). -/
def State.respondTx (status : TxStatus) (s : State) : State := s.giveTx (txStatusCode status)

/-- A frame in flight is answered: respond and go back to IDLE (42_tx_framer.md R175 to R177). `reached` is how
many leading bytes of the frame are on the line (log 13). -/
def State.endTx (status : TxStatus) (reached : Nat) (s : State) : State :=
  { s.giveTx (txStatusCode status) with
    txSt := .idle
    txLen := 0
    txFrame := []
    line := s.line ++ s.txFrame.take reached }

/-- A reset applied now cuts off a write that the sink has not answered. Before the first reset there is no frame in
flight (70_reset_and_hazards.md R231, R233). -/
def State.cutsOff (s : State) : Bool := s.resetDone && s.txSt == .waitSink

/-- The bytes of a frame in flight that reach the line although reset cuts its request off: any prefix
(70_reset_and_hazards.md R231, log 13). -/
def State.cutOffBytes (s : State) : List Byte :=
  if s.cutsOff then s.txFrame.take (Config.linePrefix s.free) else []

/-- RESET's register writes (70_reset_and_hazards.md R230), no response pending after it (R232). Held requests are
lost (60_exceptions.md R206, D35; log 14), and a write that is cut off may still be answered (R231; log 24). -/
def State.applyReset (s : State) : State :=
  { s with
    resetDone := true
    rxArmed := false
    rxSt := .waitStart
    rxLen := 0
    rxIdx := 0
    rxHcrc := 0
    rxFcrc := 0
    rxCap := 0
    txSt := .idle
    txLen := 0
    txFrame := []
    rxPending := none
    txPending := none
    rxReqs := []
    txReqs := []
    cutOffWrites := s.cutOffWrites + s.cutsOff.toNat
    line := s.line ++ s.cutOffBytes
    free := s.free + 1 }

end Sys2Proof.Machine
end

