-- ==== Sys2Proof/Machine/Reset.lean ====
section
/-! DEFINITION. The meaning of RESET (70_reset_and_hazards.md R230 to R232), taken in every state. -/

namespace Sys2Proof.Machine

/-- RESET (R230). -/
def execReset (s : State) : Result := perform .reset s (.next s.applyReset)

end Sys2Proof.Machine
end

