-- ==== Sys2Proof/Machine/Rx.lean ====
section
/-! DEFINITION. The meanings of the receive engine's operations (41_rx_framer.md), one for each rule. -/

namespace Sys2Proof.Machine

/-- RX_IOERR (R141). -/
def execRxIoerr (ignored : Byte) (s : State) : Result :=
  perform (.rxIoerr ignored) s (.next (s.endRx .ioError 0))

/-- RX_WS_START (R123). -/
def execRxWsStart (s : State) : Result :=
  perform .rxWsStart s (.next
    { s with
      rxSt := .lenLow
      rxHcrc := crc8Update Config.crcInit Config.startMarker
      rxLen := 0
      rxIdx := 0
      rxFcrc := 0 })

/-- RX_WS_SKIP (R124): the byte is discarded. -/
def execRxWsSkip (b : Byte) (s : State) : Result :=
  perform (.rxWsSkip b) s (.next s)

/-- RX_LEN_LOW (R125). -/
def execRxLenLow (b : Byte) (s : State) : Result :=
  perform (.rxLenLow b) s (.next
    { s with
      rxLen := halfOf (highByte s.rxLen) b
      rxHcrc := crc8Update s.rxHcrc b
      rxSt := .lenHigh })

/-- RX_LEN_HIGH (R126). -/
def execRxLenHigh (b : Byte) (s : State) : Result :=
  perform (.rxLenHigh b) s (.next
    { s with
      rxLen := halfOf b (lowByte s.rxLen)
      rxHcrc := crc8Update s.rxHcrc b
      rxSt := .hdrCrc })

/-- RX_HDR_OK (R127): the full-CRC accumulator is seeded with the four header bytes. -/
def execRxHdrOk (b : Byte) (s : State) : Result :=
  perform (.rxHdrOk b) s (.next
    { s with rxFcrc := crc8Block (frameHeader s.rxLen ++ [b]), rxSt := .dataStart })

/-- RX_HDR_BAD (R128). -/
def execRxHdrBad (b : Byte) (s : State) : Result :=
  perform (.rxHdrBad b) s (.next s.abandon)

/-- RX_DS_OK (R129). -/
def execRxDsOk (s : State) : Result :=
  perform .rxDsOk s (.next
    { s with rxFcrc := crc8Update s.rxFcrc Config.dataStartMarker, rxIdx := 0, rxSt := .payload })

/-- RX_DS_OK0 (R130). -/
def execRxDsOk0 (s : State) : Result :=
  perform .rxDsOk0 s (.next
    { s with rxFcrc := crc8Update s.rxFcrc Config.dataStartMarker, rxSt := .fullCrc })

/-- RX_DS_BAD (R131). -/
def execRxDsBad (b : Byte) (s : State) : Result :=
  perform (.rxDsBad b) s (.next s.abandon)

/-- RX_PAY_STORE (R132): the byte goes to the receive buffer before the frame is validated. -/
def execRxPayStore (b : Byte) (s : State) : Result :=
  perform (.rxPayStore b) s (withBuffer s.rxCap s (.next ((s.rxBufWrite s.rxIdx b).countPayload b)))

/-- RX_PAY_DROP (R133). -/
def execRxPayDrop (b : Byte) (s : State) : Result :=
  perform (.rxPayDrop b) s (.next (s.countPayload b))

/-- RX_FC_BADCRC (R137). -/
def execRxFcBadcrc (b : Byte) (s : State) : Result :=
  perform (.rxFcBadcrc b) s (.next s.abandon)

/-- RX_FC_BADLEN (R138). -/
def execRxFcBadlen (b : Byte) (s : State) : Result :=
  perform (.rxFcBadlen b) s (.next s.abandon)

/-- RX_FC_OK (R136). -/
def execRxFcOk (b : Byte) (s : State) : Result :=
  perform (.rxFcOk b) s (.next { s with rxSt := .stop })

/-- RX_STOP_OK (R139): the response carries `RX_LEN` from before the step. -/
def execRxStopOk (s : State) : Result :=
  perform .rxStopOk s (.next (s.endRx .ok s.rxLen))

/-- RX_STOP_BAD (R140). -/
def execRxStopBad (b : Byte) (s : State) : Result :=
  perform (.rxStopBad b) s (.next s.abandon)

/-- RX_REQ (R120). No host write of the buffer races with the new request yet (20_memory.md R66; log 10). -/
def execRxReq (capacity : Half) (s : State) : Result :=
  perform (.rxReq capacity) s (withBuffer capacity s (.next
    { s.abandon with rxCap := capacity, rxArmed := true, raced := [] }))

end Sys2Proof.Machine
end

