-- ==== Sys2Proof/Machine/Tx.lean ====
section
/-! DEFINITION. The meanings of the transmit engine's operations (42_tx_framer.md), one for each rule. -/

namespace Sys2Proof.Machine

/-- TX_REQ_NOPAY (R171). -/
def execTxReqNopay (len : Half) (s : State) : Result :=
  perform (.txReqNopay len) s (.next (s.respondTx .noPayload))

/-- TX_REQ_TOOBIG (R172). -/
def execTxReqToobig (present : Bool) (len : Half) (s : State) : Result :=
  perform (.txReqToobig present len) s (.next (s.respondTx .frameTooLarge))

/-- TX_REQ_SEND (R174): read the payload, build the frame, hand it to the sink as one write. -/
def execTxReqSend (present : Bool) (len : Half) (s : State) : Result :=
  perform (.txReqSend present len) s (.next
    { s with
      txLen := len
      txFrame := buildFrame (s.readPayload len)
      sinkWrites := s.sinkWrites ++ [buildFrame (s.readPayload len)]
      txSt := .waitSink })

/-- TX_SINK_OK (R175): the whole frame is on the line. -/
def execTxSinkOk (count : BitVec 17) (s : State) : Result :=
  perform (.txSinkOk count) s (.next (s.endTx .ok count.toNat))

/-- TX_SINK_SHORT (R176): the leading bytes the sink counted are on the line (70_reset_and_hazards.md R240). -/
def execTxSinkShort (count : BitVec 17) (s : State) : Result :=
  perform (.txSinkShort count) s (.next (s.endTx .shortWrite count.toNat))

/-- TX_SINK_ERR (R177): any prefix of the frame is on the line (U7, log 13). -/
def execTxSinkErr (ignored : BitVec 17) (s : State) : Result :=
  perform (.txSinkErr ignored) s (.next
    { s.endTx .sinkError (Config.linePrefix s.free) with free := s.free + 1 })

/-- TX_SINK_STRAY (R178): the word is consumed and ignored. -/
def execTxSinkStray (error : Bool) (count : BitVec 17) (s : State) : Result :=
  perform (.txSinkStray error count) s (.next s)

end Sys2Proof.Machine
end

