-- ==== Sys2Proof/Machine/Dispatch.lean ====
section
/-! DEFINITION. One arm for each operation: a direct call of its meaning. -/

namespace Sys2Proof.Machine

def exec (i : Instr) (s : State) : Host.Outcome State Fault Refusal :=
  match i with
  | .rxIoerr ignored => Sys2Proof.Machine.execRxIoerr ignored s
  | .rxWsStart => Sys2Proof.Machine.execRxWsStart s
  | .rxWsSkip b => Sys2Proof.Machine.execRxWsSkip b s
  | .rxLenLow b => Sys2Proof.Machine.execRxLenLow b s
  | .rxLenHigh b => Sys2Proof.Machine.execRxLenHigh b s
  | .rxHdrOk b => Sys2Proof.Machine.execRxHdrOk b s
  | .rxHdrBad b => Sys2Proof.Machine.execRxHdrBad b s
  | .rxDsOk => Sys2Proof.Machine.execRxDsOk s
  | .rxDsOk0 => Sys2Proof.Machine.execRxDsOk0 s
  | .rxDsBad b => Sys2Proof.Machine.execRxDsBad b s
  | .rxPayStore b => Sys2Proof.Machine.execRxPayStore b s
  | .rxPayDrop b => Sys2Proof.Machine.execRxPayDrop b s
  | .rxFcBadcrc b => Sys2Proof.Machine.execRxFcBadcrc b s
  | .rxFcBadlen b => Sys2Proof.Machine.execRxFcBadlen b s
  | .rxFcOk b => Sys2Proof.Machine.execRxFcOk b s
  | .rxStopOk => Sys2Proof.Machine.execRxStopOk s
  | .rxStopBad b => Sys2Proof.Machine.execRxStopBad b s
  | .rxReq capacity => Sys2Proof.Machine.execRxReq capacity s
  | .txReqNopay len => Sys2Proof.Machine.execTxReqNopay len s
  | .txReqToobig present len => Sys2Proof.Machine.execTxReqToobig present len s
  | .txReqSend present len => Sys2Proof.Machine.execTxReqSend present len s
  | .txSinkOk count => Sys2Proof.Machine.execTxSinkOk count s
  | .txSinkShort count => Sys2Proof.Machine.execTxSinkShort count s
  | .txSinkErr ignored => Sys2Proof.Machine.execTxSinkErr ignored s
  | .txSinkStray error count => Sys2Proof.Machine.execTxSinkStray error count s
  | .reset => Sys2Proof.Machine.execReset s

end Sys2Proof.Machine
end

