-- ==== Sys2Proof/Machine/Events.lean ====
section
/-! DEFINITION. How a run goes from one step to the next: which offered word an engine takes (60_exceptions.md
R215, R206, 30_encoding.md R93; log 1 to 3), what a word does that its engine does not take, the host's actions on
its memory (20_memory.md R66, 70_reset_and_hazards.md R239) and its taking of responses (60_exceptions.md R207). -/

namespace Sys2Proof.Machine

/-- A word that its engine does not take waits at its port, behind those already waiting: held requests
(41_rx_framer.md R120, 42_tx_framer.md R170) and words left in the source (R122). -/
def State.wait (s : State) : PortWord → State
  | .rxReq w => { s with rxReqs := s.rxReqs ++ [w] }
  | .src w => { s with source := s.source ++ [w] }
  | .txReq w => { s with txReqs := s.txReqs ++ [w] }
  | .rst => s
  | .sinkResp _ => s

/-- An offered word is decoded and run, or waits. -/
def offer (w : PortWord) (s : State) : Result :=
  match decode s.ctx w with
  | .ok i => exec i s
  | .error _ => .next (s.wait w)

/-- The held request that an engine can take now, and the state without it (30_encoding.md R93). -/
def heldRequest (s : State) : Option (PortWord × State) :=
  match s.rxArmed, s.rxReqs with
  | false, w :: ws => some (.rxReq w, { s with rxReqs := ws })
  | _, _ =>
    match s.txSt, s.txReqs with
    | .idle, w :: ws => some (.txReq w, { s with txReqs := ws })
    | _, _ => none

/-- The waiting source word that the armed receive engine takes now, and the state without it
(41_rx_framer.md R122). -/
def waitingWord (s : State) : Option (PortWord × State) :=
  match s.rxArmed, s.source with
  | true, w :: ws => some (.src w, { s with source := ws })
  | _, _ => none

/-- The host takes the pending `rx_resp` (60_exceptions.md R207). With none pending there is nothing to take, and
nothing changes: the spec has no such transaction (DESIGN CHOICE, log 12). -/
def State.takeRx (s : State) : State := { s with rxPending := none }

/-- The host takes the pending `tx_resp`, as `takeRx` (60_exceptions.md R207; log 12). -/
def State.takeTx (s : State) : State := { s with txPending := none }

/-- Responses never queue up (60_exceptions.md R207): where an engine could take a request while its last response
is pending, the host takes that response first, in a step of its own (DESIGN CHOICE, log 12). -/
def responseFirst : PortWord → State → Option State
  | .rxReq _, s => if !s.rxArmed && s.rxPending.isSome then some s.takeRx else none
  | .txReq _, s => if s.txSt == .idle && s.txPending.isSome then some s.takeTx else none
  | .rst, _ => none
  | .src _, _ => none
  | .sinkResp _, _ => none

/-- How many payload bytes the host must leave alone: those of the request in flight and of the held ones
(70_reset_and_hazards.md R239; log 11). -/
def State.dutyLen (s : State) : Nat :=
  s.txReqs.foldr (fun w n => if txReqPresent w then max (txReqLen w).toNat n else n)
    (if s.txSt = .waitSink then s.txLen.toNat else 0)

/-- An address reads the same in two memories. Where neither changed the entry that is plain without reading. -/
def Memory.sameAt (m m' : Memory) (a : Nat) : Bool := m.peek a == m'.peek a || m.read a == m'.read a

/-- The payload bytes under the host's duty read the same in both states (70_reset_and_hazards.md R239). A byte
that nothing has written yet is unchanged by a write of the very value it reads as, a free value (U3), and changed
by any other write (DESIGN CHOICE, log 11). -/
def dutyKept (s s' : State) : Bool :=
  (List.range s.dutyLen).all (fun off => s.mem.sameAt s'.mem (s.txBase + off))

/-- A host action that leaves the payload of an open request alone goes through (R239, U12). -/
def underDuty (s s' : State) : Result :=
  if dutyKept s s' then .next s' else .refused .payloadDutyBroken

/-- An address of the host's receive buffer. -/
def State.inRxBuffer (s : State) (a : Nat) : Bool :=
  decide (s.rxBase ≤ a) && decide (a < s.rxBase + s.rxBufSize)

/-- A host access to this address races with the armed engine (20_memory.md R66). -/
def State.races (s : State) (a : Nat) : Bool := s.rxArmed && s.inRxBuffer a

/-- A host write of one byte. Where it races (U5), what the byte holds then is a free value, and so it is after any
store of the engine to it in this request (`State.storedByte`; log 10). -/
def State.hostPut (a : Nat) (b : Byte) (s : State) : State :=
  if s.races a then
    { s with
      mem := s.mem.put a (Config.raceWriteByte s.free)
      raced := s.raced.insert a
      free := s.free + 1 }
  else { s with mem := s.mem.put a b }

/-- Host writes of bytes at rising addresses. -/
def State.hostPutAll (a : Nat) : List Byte → State → State
  | [], s => s
  | b :: bs, s => State.hostPutAll (a + 1) bs (s.hostPut a b)

/-- `txmem` (30_encoding.md R93): the bytes go to payload offsets 0, 1, …, as far as a 16-bit offset reaches
(20_memory.md R54); bytes beyond them stay (log 22). -/
def hostTxMem (bytes : List Byte) (s : State) : Result :=
  underDuty s (s.hostPutAll s.txBase (bytes.take 65536))

/-- The host reads a byte of the receive buffer; while a request is armed the read races and gives a free value
(20_memory.md R66, U4, log 9). -/
def hostRead (i : Half) (s : State) : Result :=
  if i.toNat < s.rxBufSize then
    if s.rxArmed then
      .next { s with hostReads := s.hostReads ++ [(i, Config.raceReadByte s.free)], free := s.free + 1 }
    else .next { s with hostReads := s.hostReads ++ [(i, s.mem.read (s.rxAddr i))] }
  else .fault .hostOutsideBuffer

/-- The host writes a byte of the receive buffer (20_memory.md R66). -/
def hostWrite (i : Half) (b : Byte) (s : State) : Result :=
  if i.toNat < s.rxBufSize then underDuty s (s.hostPut (s.rxAddr i) b) else .fault .hostOutsideBuffer

/-- A source word delivered behind others joins them: words are taken in the order they came (R122). -/
def joinsSource : PortWord → State → Bool
  | .src _, s => !s.source.isEmpty
  | .rst, _ => false
  | .rxReq _, _ => false
  | .txReq _, _ => false
  | .sinkResp _, _ => false

/-- The armed receive engine takes the oldest waiting word; where it has none to take, `other` happens. -/
def takeWaiting (s : State) (other : Result) : Result :=
  match waitingWord s with
  | some (w, t) => offer w t
  | none => other

/-- The sink answers a write made before a reset: the word is consumed and ignored, in IDLE and in WAIT_SINK
(70_reset_and_hazards.md R231, 42_tx_framer.md R178). It is then answered (R240). Where no write is left that a reset cut
off, the word is a `sink_resp` like any other (log 24). -/
def staleSinkResp (w : SinkWord) (s : State) : Result :=
  match s.cutOffWrites with
  | 0 => offer (.sinkResp w) s
  | n + 1 => .next { s with cutOffWrites := n }

/-- One event of the script. -/
def runEvent (e : Event) (s : State) : Result :=
  match e with
  | .port w => if joinsSource w s then .next (s.wait w) else offer w s
  | .txMem bytes => hostTxMem bytes s
  | .hostRead i => hostRead i s
  | .hostWrite i b => hostWrite i b s
  | .takeRxResp => .next s.takeRx
  | .takeTxResp => .next s.takeTx
  | .sourceTurn => takeWaiting s (.next s)
  | .staleSinkResp w => staleSinkResp w s

/-- The step of the host that a line of the script waits for (log 12). -/
def lineWaitsFor (e : Event) (s : State) : Option State :=
  match e with
  | .port w => responseFirst w s
  | .txMem _ => none
  | .hostRead _ => none
  | .hostWrite _ _ => none
  | .takeRxResp => none
  | .takeTxResp => none
  | .sourceTurn => none
  | .staleSinkResp _ => none

/-- The script has run out: the environment goes on, or all state is kept (60_exceptions.md R217, R218; log 3,
log 25). -/
def State.goOn (s : State) : State :=
  match s.endless with
  | .stops => s
  | .repeats lines => { s with script := lines }
  | .streams n => { s with script := [.port (.src (Config.streamWord n))], endless := .streams (n + 1) }

/-- The script's next line; after the last one a word that waits in the source (41_rx_framer.md R122), and then
whatever the environment goes on with. -/
def runScript (s : State) : Result :=
  match s.script with
  | [] => takeWaiting s (.next s.goOn)
  | e :: es =>
    match lineWaitsFor e s with
    | some t => .next t
    | none => runEvent e { s with script := es }

/-- Whether the script's next line is `rst`. -/
def State.resetNext (s : State) : Bool := s.script.head? == some (.port .rst)

/-- One step after the first reset: a held request whose engine is free (30_encoding.md R93), else what the script
says is next (60_exceptions.md R215: any agent with an enabled step may be next; log 2). -/
def runNext (s : State) : Result :=
  match heldRequest s with
  | some (w, t) =>
    match responseFirst w s with
    | some u => .next u
    | none => offer w t
  | none => runScript s

/-- Before the first reset only `rst` is taken; any other step is refused (70_reset_and_hazards.md R233). -/
def runFirst (s : State) : Result :=
  if s.resetNext then runScript s else .refused .beforeFirstReset

/-- One step. -/
def runStep (s : State) : Result := if s.resetDone then runNext s else runFirst s

/-- The registers and parameters that make an offered table word the operation `decodeTableWord` reads
(log 17). -/
def State.selectFor (s : State) : PortWord → State
  | .rst => s
  | .rxReq c => { s with rxArmed := false, rxBufSize := max s.rxBufSize c.toNat }
  | .src w =>
    { s with
      rxArmed := true
      rxSt := tableRxSt w
      rxLen := if tableRxSt w = .dataStart then 0 else s.rxLen }
  | .txReq w => { s with txSt := .idle, txFrameMax := max s.txFrameMax (frameSize (txReqLen w)) }
  | .sinkResp w => { s with txSt := .waitSink, txLen := tableTxLen w }

/-- The word is the next one its engine takes: nothing else waits, and the script offers it (log 17). -/
def State.placeWord (w : PortWord) (s : State) : State :=
  { s.selectFor w with
    resetDone := true
    source := []
    rxReqs := []
    txReqs := []
    rxPending := none
    txPending := none
    script := .port w :: s.script }

end Sys2Proof.Machine
end

