-- ==== Sys2Proof/Machine/Step.lean ====
section
/-! DEFINITION. The step, and where it fetches its next word. -/

namespace Sys2Proof.Machine

/-- One atomic transition of one agent (60_exceptions.md R215). -/
def step (s : State) : Host.Outcome State Fault Refusal := runStep s

/-- `s` with a table word offered as the next input, in a state that makes it the operation the decoder reads
(log 16, log 17). Bits that no row has stand for no word: then nothing changes. -/
def State.withFetchWord (s : State) (nbits w : Nat) : State :=
  match tablePortWord nbits w with
  | none => s
  | some pw => s.placeWord pw

end Sys2Proof.Machine
end

