-- ==== Sys2Proof/Safety.lean ====
section
/-! DEFINITION. The terms claims are made in: which word a step takes, which operations belong to which engine,
the invariant of the registers (10_state.md R28, R39), and runs over bytes the source delivers. -/

namespace Sys2Proof.Machine

/-- An operation of the receive engine (30_encoding.md R89; RX_REQ of 41_rx_framer.md R120). -/
def isReceiveOp : Instr → Bool
  | .rxIoerr _ | .rxWsStart | .rxWsSkip _ | .rxLenLow _ | .rxLenHigh _ | .rxHdrOk _ | .rxHdrBad _
  | .rxDsOk | .rxDsOk0 | .rxDsBad _ | .rxPayStore _ | .rxPayDrop _ | .rxFcBadcrc _ | .rxFcBadlen _
  | .rxFcOk _ | .rxStopOk | .rxStopBad _ | .rxReq _ => true
  | .txReqNopay _ | .txReqToobig _ _ | .txReqSend _ _ | .txSinkOk _ | .txSinkShort _ | .txSinkErr _
  | .txSinkStray _ _ | .reset => false

/-- An operation of the transmit engine (30_encoding.md R90). -/
def isTransmitOp : Instr → Bool
  | .txReqNopay _ | .txReqToobig _ _ | .txReqSend _ _ | .txSinkOk _ | .txSinkShort _ | .txSinkErr _
  | .txSinkStray _ _ => true
  | .rxIoerr _ | .rxWsStart | .rxWsSkip _ | .rxLenLow _ | .rxLenHigh _ | .rxHdrOk _ | .rxHdrBad _
  | .rxDsOk | .rxDsOk0 | .rxDsBad _ | .rxPayStore _ | .rxPayDrop _ | .rxFcBadcrc _ | .rxFcBadlen _
  | .rxFcOk _ | .rxStopOk | .rxStopBad _ | .rxReq _ | .reset => false

/-- The host's own actions: events that are no word of a neighbour and no turn of the receive engine. -/
def isHostAction : Event → Bool
  | .txMem _ | .hostRead _ | .hostWrite _ _ | .takeRxResp | .takeTxResp => true
  | .port _ | .sourceTurn | .staleSinkResp _ => false

/-- No held request can be taken: its engine is busy, or none is held. -/
def State.noHeldReady (s : State) : Prop :=
  (s.rxArmed = true ∨ s.rxReqs = []) ∧ (s.txSt = .waitSink ∨ s.txReqs = [])

/-- `Takes s w u`: the next step of `s` is about the offered word `w`, and `u` is `s` with that word no longer
offered (log 1, log 2). -/
inductive Takes (s : State) : PortWord → State → Prop where
  /-- A held receive request whose engine is disarmed and its last response taken (30_encoding.md R93; log 12). -/
  | heldRx (w : Half) (ws : List Half) (hr : s.resetDone = true) (ha : s.rxArmed = false)
      (hp : s.rxPending = none) (hq : s.rxReqs = w :: ws) : Takes s (.rxReq w) { s with rxReqs := ws }
  /-- A held transmit request whose engine is IDLE and its last response taken (30_encoding.md R93; log 12). -/
  | heldTx (w : TxReqWord) (ws : List TxReqWord) (hr : s.resetDone = true)
      (ha : s.rxArmed = true ∨ s.rxReqs = []) (hi : s.txSt = .idle) (hp : s.txPending = none)
      (hq : s.txReqs = w :: ws) : Takes s (.txReq w) { s with txReqs := ws }
  /-- A reset offered now (60_exceptions.md R206), the only word taken before the first one (R233). -/
  | reset (es : List Event) (hh : s.resetDone = false ∨ s.noHeldReady)
      (hs : s.script = .port .rst :: es) : Takes s .rst { s with script := es }
  /-- A word that waits in the source of an armed engine, whose turn it is (41_rx_framer.md R122). -/
  | turn (w : SrcWord) (ws : List SrcWord) (es : List Event) (hr : s.resetDone = true) (hh : s.noHeldReady)
      (ha : s.rxArmed = true) (hq : s.source = w :: ws) (hs : s.script = .sourceTurn :: es) :
      Takes s (.src w) { s with source := ws, script := es }
  /-- A word that waits in the source of an armed engine, after the script's last line. -/
  | waiting (w : SrcWord) (ws : List SrcWord) (hr : s.resetDone = true) (hh : s.noHeldReady)
      (ha : s.rxArmed = true) (hq : s.source = w :: ws) (hs : s.script = []) :
      Takes s (.src w) { s with source := ws }
  /-- A sink word said to be stale, where no write is left that a reset cut off (70_reset_and_hazards.md R231, log 24). -/
  | unowed (w : SinkWord) (es : List Event) (hr : s.resetDone = true) (hh : s.noHeldReady)
      (hc : s.cutOffWrites = 0) (hs : s.script = .staleSinkResp w :: es) :
      Takes s (.sinkResp w) { s with script := es }
  /-- The word of the script's next line, for which no other word and no response is in the way
  (30_encoding.md R93). -/
  | script (w : PortWord) (es : List Event) (hr : s.resetDone = true) (hh : s.noHeldReady)
      (hw : w ≠ .rst) (hq : joinsSource w s = false) (hp : responseFirst w s = none)
      (hs : s.script = .port w :: es) : Takes s w { s with script := es }

/-- A payload byte that the host must leave alone: byte `k` of the request in flight, or of a held request with a
payload (70_reset_and_hazards.md R239, U12). -/
def State.onDuty (s : State) (k : Nat) : Prop :=
  s.txSt = .waitSink ∧ k < s.txLen.toNat ∨
    ∃ w ∈ s.txReqs, txReqPresent w = true ∧ k < (txReqLen w).toNat

/-- The `rxbuf_wr` transactions that a candidate's payload bytes make: those below the capacity, in order
(20_memory.md R65, 41_rx_framer.md R132, R133). -/
def payloadWrites (cap : Half) (p : List Byte) : List (Half × Byte) :=
  (List.range (min p.length cap.toNat)).map (fun i => (BitVec.ofNat 16 i, p.getD i 0))

/-- `p` is what the candidate has delivered of its payload: it is counted, it is folded into the full CRC behind
the five bytes before it, and its bytes within capacity are the last buffer writes made (10_state.md R24, R26). -/
def State.hasPayload (s : State) (p : List Byte) : Prop :=
  p.length = s.rxIdx.toNat ∧ s.rxFcrc = crc8Block (framePrefix s.rxLen ++ p) ∧
    payloadWrites s.rxCap p <:+ s.rxBufWrs

/-- The row of 10_state.md R28 for the receive state. -/
def State.rxRow (s : State) : Prop :=
  match s.rxSt with
  | .waitStart => s.rxLen = 0 ∧ s.rxIdx = 0 ∧ s.rxHcrc = 0 ∧ s.rxFcrc = 0
  | .lenLow => s.rxLen = 0 ∧ s.rxIdx = 0 ∧ s.rxHcrc = 0xE8 ∧ s.rxFcrc = 0
  | .lenHigh =>
    highByte s.rxLen = 0 ∧ s.rxIdx = 0 ∧ s.rxHcrc = crc8Block [0xFA, lowByte s.rxLen] ∧ s.rxFcrc = 0
  | .hdrCrc => s.rxIdx = 0 ∧ s.rxHcrc = crc8Block (frameHeader s.rxLen) ∧ s.rxFcrc = 0
  | .dataStart => s.rxIdx = 0 ∧ s.rxHcrc = crc8Block (frameHeader s.rxLen) ∧ s.rxFcrc = 0
  | .payload =>
    s.rxIdx < s.rxLen ∧ s.rxHcrc = crc8Block (frameHeader s.rxLen) ∧ ∃ p, s.hasPayload p
  | .fullCrc =>
    s.rxIdx = s.rxLen ∧ s.rxHcrc = crc8Block (frameHeader s.rxLen) ∧ ∃ p, s.hasPayload p
  | .stop =>
    s.rxIdx = s.rxLen ∧ s.rxLen ≤ s.rxCap ∧ s.rxHcrc = crc8Block (frameHeader s.rxLen) ∧
      ∃ p, s.hasPayload p

/-- The transmit registers: nothing held in IDLE; in WAIT_SINK a frame of `TX_LEN` payload bytes that fits, the
last one handed to the sink (10_state.md R30 to R32, 42_tx_framer.md R174). -/
def State.txRow (s : State) : Prop :=
  match s.txSt with
  | .idle => s.txLen = 0 ∧ s.txFrame = []
  | .waitSink =>
    isFrame s.txFrame = true ∧ declaredLen s.txFrame = s.txLen ∧ frameSize s.txLen ≤ s.txFrameMax ∧
      s.sinkWrites.getLast? = some s.txFrame

/-- The invariant every step keeps. -/
structure State.Inv (s : State) : Prop where
  /-- The first reset has been applied (70_reset_and_hazards.md R233). -/
  afterReset : s.resetDone = true
  /-- The memory has its canonical form. -/
  memWf : s.mem.wf
  /-- The receive registers are those of their row (10_state.md R28). -/
  rxRow : s.rxRow
  /-- A disarmed engine is in WAIT_START (10_state.md R39). -/
  disarmed : s.rxArmed = false → s.rxSt = .waitStart
  /-- An armed engine has the buffer its capacity asks for (70_reset_and_hazards.md R237). -/
  buffer : s.rxArmed = true → s.rxCap.toNat ≤ s.rxBufSize
  /-- The transmit registers. -/
  txRow : s.txRow
  /-- The last response of an engine is taken before it works on another request (60_exceptions.md R207). -/
  taken : (s.rxArmed = true → s.rxPending = none) ∧ (s.txSt = .waitSink → s.txPending = none)

/-- Bit `p` of an error pattern, counted from the most significant bit of its first byte (40_crc8.md R107). -/
def errorBit (e : List Byte) (p : Nat) : Bool := (e.getD (p / 8) 0).getLsbD (7 - p % 8)

/-- The events by which the source delivers bytes, in order and without an error word (30_encoding.md R94). -/
def deliver (bs : List Byte) : List Event := bs.map (fun b => .port (.src (srcWord false b)))

/-- An armed engine in WAIT_START, to which the source delivers `bs` and then the script goes on with `rest`;
no other word is in the way. -/
structure State.Listening (s : State) (bs : List Byte) (rest : List Event) : Prop where
  afterReset : s.resetDone = true
  armed : s.rxArmed = true
  scanning : s.rxSt = .waitStart
  buffer : s.rxCap.toNat ≤ s.rxBufSize
  sourceEmpty : s.source = []
  noTxReq : s.txSt = .waitSink ∨ s.txReqs = []
  delivery : s.script = deliver bs ++ rest

end Sys2Proof.Machine
end

