-- ==== Sys2Proof/Certificates/Slice0/Obligations.lean ====
section
/-! DEFINITION. The statements for the provers, family by family. Each docstring names the rule it formalises. -/

open Sys2Proof Sys2Proof.Machine

/-! ## The CRC-8 unit (40_crc8.md) -/

/-- R104: the update depends only on `c ^ b`, so it is a table indexed by it. -/
def Obligations.CrcUpdateIsATable : Prop :=
  ∀ c b : Byte, crc8Update c b = crc8Update 0x00 (c ^^^ b) ∧ crc8Update c c = 0x00

/-- R102: the incremental update and the block function agree on every prefix. -/
def Obligations.CrcIncrementalAgreesWithBlock : Prop :=
  ∀ (s : List Byte) (b : Byte), crc8Block (s ++ [b]) = crc8Update (crc8Block s) b

/-- R105: zero residue, and its two results: the full-CRC seed after a correct header CRC, and every
well-formed frame through its FCRC byte. -/
def Obligations.CrcZeroResidue : Prop :=
  (∀ s : List Byte, crc8Block (s ++ [crc8Block s]) = 0x00) ∧
  (∀ len : Half, crc8Block (frameHeader len ++ [crc8Block (frameHeader len)]) = 0x00) ∧
  (∀ f : List Byte, isFrame f = true → crc8Block (f.take (6 + (declaredLen f).toNat)) = 0x00)

/-- R106: linearity over GF(2); whether an error pattern is detected depends only on the pattern. -/
def Obligations.CrcIsLinear : Prop :=
  ∀ (s e : List Byte) (c0 : Byte), s.length = e.length →
    crc8Block (List.zipWith (· ^^^ ·) s e) c0 = crc8Block s c0 ^^^ crc8Block e 0x00 ∧
    (crc8Block (List.zipWith (· ^^^ ·) s e) c0 = crc8Block s c0 ↔ crc8Block e 0x00 = 0x00)

/-- R107(a) and (b): every error of an odd number of bits is detected, a single-bit error among them. -/
def Obligations.CrcDetectsOddErrors : Prop :=
  ∀ s e : List Byte, s.length = e.length →
    (e.map (fun b => (List.range 8).countP (fun i => b.getLsbD i))).sum % 2 = 1 →
    crc8Block (List.zipWith (· ^^^ ·) s e) ≠ crc8Block s

/-- R107(c): every burst of length at most 8 is detected, in a sequence of any length: some bit is wrong, and any two
wrong bits are less than 8 positions apart. -/
def Obligations.CrcDetectsShortBursts : Prop :=
  ∀ s e : List Byte, s.length = e.length → (∃ p, errorBit e p = true) →
    (∀ p q, errorBit e p = true → errorBit e q = true → q < p + 8) →
    crc8Block (List.zipWith (· ^^^ ·) s e) ≠ crc8Block s

/-! ## The frame wire format (30_encoding.md R70 to R77, 42_tx_framer.md R173, R181) -/

/-- `build_frame(P)` is a well-formed frame of `len(P) + 7` bytes that declares `len(P)` and carries `P`
(R71, R76, R173). -/
def Obligations.BuildFrameIsWellFormed : Prop :=
  ∀ p : List Byte, p.length ≤ 65535 →
    isFrame (buildFrame p) = true ∧ (buildFrame p).length = p.length + 7 ∧
    (declaredLen (buildFrame p)).toNat = p.length ∧ payloadOf (buildFrame p) = p

/-- A well-formed frame is the frame built from its payload, so the format has one frame for each payload
(R76, R173). -/
def Obligations.FrameIsBuiltFromItsPayload : Prop :=
  ∀ f : List Byte, isFrame f = true → f = buildFrame (payloadOf f)

/-- R181: the full CRC over all bytes before it, the receiver's form of it (seeded from the four header bytes and
folded on), and the CRC of the data-start marker and the payload are one value, byte `5 + L` of the frame. -/
def Obligations.FullCrcFormsAgree : Prop :=
  ∀ p : List Byte, p.length ≤ 65535 →
    let len : Half := BitVec.ofNat 16 p.length
    let seed := crc8Block (frameHeader len ++ [crc8Block (frameHeader len)])
    (buildFrame p)[5 + p.length]? = some (crc8Block ((buildFrame p).take (5 + p.length))) ∧
    crc8Block ((buildFrame p).take (5 + p.length)) = crc8Block (0xFB :: p) seed ∧
    (buildFrame p)[5 + p.length]? = some (crc8Block (0xFB :: p))

/-- R149, its first claim: a well-formed frame with exactly one bit flipped, anywhere, is no well-formed frame. -/
def Obligations.SingleBitFlipBreaksFrame : Prop :=
  ∀ (f : List Byte) (k : Nat) (hk : k < f.length) (bit : Fin 8), isFrame f = true →
    isFrame (f.set k (f[k] ^^^ BitVec.twoPow 8 bit.val)) = false

/-! ## The operation map (30_encoding.md R89, R90) -/

/-- Decode and encode agree, for every operation and every operand: where an operation's Encoding clause holds, its
word decodes to it; what a word decodes to has that word and meets its clause; and every well-formed operation has
a state in which its clause holds. -/
def Obligations.DecodeEncodeAgree : Prop :=
  (∀ (k : Ctx) (i : Instr), selects k i = true → decode k (encode i) = .ok i) ∧
  (∀ (k : Ctx) (w : PortWord) (i : Instr), decode k w = .ok i → encode i = w ∧ selects k i = true) ∧
  (∀ i : Instr, i.wellFormed = true → ∃ k : Ctx, decode k (encode i) = .ok i)

/-- R89: while armed, each state and source word selects exactly one operation, and an error word selects
RX_IOERR in every state. -/
def Obligations.SourceWordSelectsOneOperation : Prop :=
  ∀ (k : Ctx) (w : SrcWord), k.rxArmed = true →
    (∃ i, (encode i = .src w ∧ selects k i = true) ∧
      (∀ j, encode j = .src w → selects k j = true → j = i) ∧ isReceiveOp i = true) ∧
    (srcError w = true → decode k (.src w) = .ok (.rxIoerr (srcByte w)))

/-- R90: each word that the transmit engine takes selects exactly one operation: a `tx_req` in IDLE, a
`sink_resp` in either state. -/
def Obligations.TransmitWordSelectsOneOperation : Prop :=
  (∀ (k : Ctx) (w : TxReqWord), k.txSt = .idle →
    ∃ i, (encode i = .txReq w ∧ selects k i = true) ∧
      (∀ j, encode j = .txReq w → selects k j = true → j = i) ∧ isTransmitOp i = true) ∧
  (∀ (k : Ctx) (w : SinkWord),
    ∃ i, (encode i = .sinkResp w ∧ selects k i = true) ∧
      (∀ j, encode j = .sinkResp w → selects k j = true → j = i) ∧ isTransmitOp i = true)

/-- Words written out from the spec's encodings decode to their operations (R81, R83, R85, R87, R88). -/
def Obligations.SpecWordsDecode : Prop :=
  let armed (st : RxSt) : Ctx := ⟨true, st, 1, 0, 0xFE, 0x43, 4, .idle, 1, 65542⟩
  let sending : Ctx := ⟨false, .waitStart, 0, 0, 0, 0, 0, .waitSink, 1, 65542⟩
  decode (armed .waitStart) (.src 0b011111010#9) = .ok .rxWsStart ∧
  decode (armed .hdrCrc) (.src 0b011111110#9) = .ok (.rxHdrOk 0xFE) ∧
  decode (armed .payload) (.src 0b001000001#9) = .ok (.rxPayStore 0x41) ∧
  decode (armed .fullCrc) (.src 0b001000011#9) = .ok (.rxFcOk 0x43) ∧
  decode (armed .lenLow) (.src 0b100000000#9) = .ok (.rxIoerr 0) ∧
  decode (armed .waitStart) (.txReq 0x00003#17) = .ok (.txReqNopay 3) ∧
  decode (armed .waitStart) (.txReq 0x1000E#17) = .ok (.txReqSend true 14) ∧
  decode sending (.rxReq 0x0010#16) = .ok (.rxReq 16) ∧
  decode sending (.sinkResp 0x00008#18) = .ok (.txSinkOk 8) ∧
  decode sending (.sinkResp 0x20000#18) = .ok (.txSinkErr 0) ∧
  decode sending .rst = .ok .reset

/-- A step runs the decoded instruction: where the next step is about the offered word `w`, the step is `exec` of
what `w` decodes to, in the state in which `w` is no longer offered; where its engine does not take `w`, the step
leaves it waiting at its port. (The order in which offered words are taken is the model's: log 1, log 2.) -/
def Obligations.StepRunsTheDecodedInstruction : Prop :=
  ∀ (s u : State) (w : PortWord), Takes s w u →
    (∀ i, decode u.ctx w = .ok i → step s = exec i u) ∧
    (∀ r, decode u.ctx w = .error r → step s = .next (u.wait w))

/-- An operation in a state, or on a word, for which R89 and R90 select another one is refused and changes nothing
(the model's choice, log 15: no step asks for one). -/
def Obligations.UnselectedOperationsAreRefused : Prop :=
  ∀ (i : Instr) (s : State), selects s.ctx i = false → exec i s = .refused .notSelected

/-- A word its engine does not take changes no register: a request is held (R81, R85), a source word stays in
the source (R83); and a source word behind others joins them, since words are taken in the order they came (R122; how
they wait is the model's, log 1). -/
def Obligations.UntakenWordsWait : Prop :=
  (∀ (s : State) (c : Half), s.rxArmed = true →
    offer (.rxReq c) s = .next { s with rxReqs := s.rxReqs ++ [c] }) ∧
  (∀ (s : State) (w : TxReqWord), s.txSt = .waitSink →
    offer (.txReq w) s = .next { s with txReqs := s.txReqs ++ [w] }) ∧
  (∀ (s : State) (w : SrcWord), s.rxArmed = false →
    offer (.src w) s = .next { s with source := s.source ++ [w] }) ∧
  (∀ (s : State) (w : SrcWord), s.source ≠ [] →
    runEvent (.port (.src w)) s = .next { s with source := s.source ++ [w] })

/-- No input is illegal and none traps (R91): from a state that meets the invariant, a step about any offered word
answers a next state, but for an `rx_req` whose capacity exceeds the buffer that the host provides (R237). -/
def Obligations.EveryOfferedWordIsProcessed : Prop :=
  ∀ (s u : State) (w : PortWord), s.Inv → Takes s w u →
    (∀ c, w = .rxReq c → c.toNat ≤ s.rxBufSize) → ∃ t, step s = .next t

/-! ## The receive engine, operation by operation (41_rx_framer.md) -/

/-- R120: RX_REQ latches the capacity, arms the engine and starts it in WAIT_START; while armed, an `rx_req` word is
no operation and is held. (The buffer is as long as the capacity asks, R237. Not claimed here: the list of racing bytes,
the model's own, log 10.) -/
def Obligations.RxReqArmsTheReceiver : Prop :=
  (∀ (s : State) (c : Half), s.rxArmed = false → c.toNat ≤ s.rxBufSize →
    ∃ t, exec (.rxReq c) s = .next t ∧
      t = { s with
        rxCap := c, rxArmed := true, raced := t.raced
        rxSt := .waitStart, rxLen := 0, rxIdx := 0, rxHcrc := 0, rxFcrc := 0 }) ∧
  (∀ (s : State) (c : Half), s.rxArmed = true → decode s.ctx (.rxReq c) = .error .rxReqHeld)

/-- R123: RX_WS_START. -/
def Obligations.StartMarkerBeginsCandidate : Prop :=
  ∀ s : State, s.rxArmed = true → s.rxSt = .waitStart →
    exec .rxWsStart s = .next
      { s with rxSt := .lenLow, rxHcrc := 0xE8, rxLen := 0, rxIdx := 0, rxFcrc := 0 }

/-- R124: RX_WS_SKIP changes nothing; the byte is discarded. -/
def Obligations.OtherBytesAreSkipped : Prop :=
  ∀ (s : State) (b : Byte), s.rxArmed = true → s.rxSt = .waitStart → b ≠ 0xFA →
    exec (.rxWsSkip b) s = .next s

/-- R125 and R126: the two length bytes, little-endian, each folded into the header CRC. -/
def Obligations.LengthBytesAreTaken : Prop :=
  (∀ (s : State) (b : Byte), s.rxArmed = true → s.rxSt = .lenLow →
    ∃ t, exec (.rxLenLow b) s = .next t ∧
      t = { s with rxLen := t.rxLen, rxHcrc := crc8Update s.rxHcrc b, rxSt := .lenHigh } ∧
      t.rxLen.toNat = s.rxLen.toNat / 256 * 256 + b.toNat) ∧
  (∀ (s : State) (b : Byte), s.rxArmed = true → s.rxSt = .lenHigh →
    ∃ t, exec (.rxLenHigh b) s = .next t ∧
      t = { s with rxLen := t.rxLen, rxHcrc := crc8Update s.rxHcrc b, rxSt := .hdrCrc } ∧
      t.rxLen.toNat = b.toNat * 256 + s.rxLen.toNat % 256)

/-- R127, R145: RX_HDR_OK seeds the full CRC with the four header bytes; where the accumulator is the header's
CRC, as it is throughout HDR_CRC (R25), the seed is 0x00. -/
def Obligations.HeaderCrcMatchSeedsFullCrc : Prop :=
  ∀ s : State, s.rxArmed = true → s.rxSt = .hdrCrc →
    exec (.rxHdrOk s.rxHcrc) s = .next
      { s with
        rxFcrc := crc8Block [0xFA, lowByte s.rxLen, highByte s.rxLen, s.rxHcrc]
        rxSt := .dataStart } ∧
    (s.rxHcrc = crc8Block [0xFA, lowByte s.rxLen, highByte s.rxLen] →
      crc8Block [0xFA, lowByte s.rxLen, highByte s.rxLen, s.rxHcrc] = 0x00)

/-- R121 with R128, R131, R137, R138, R140: the five framing errors abandon the candidate: the registers are
cleared, the engine stays armed, nothing is answered and no byte of memory changes. -/
def Obligations.FramingErrorsAbandonTheCandidate : Prop :=
  ∀ (s : State) (b : Byte) (i : Instr), s.rxArmed = true →
    (i = .rxHdrBad b ∧ s.rxSt = .hdrCrc ∧ b ≠ s.rxHcrc ∨
      i = .rxDsBad b ∧ s.rxSt = .dataStart ∧ b ≠ 0xFB ∨
      i = .rxFcBadcrc b ∧ s.rxSt = .fullCrc ∧ b ≠ s.rxFcrc ∨
      i = .rxFcBadlen b ∧ s.rxSt = .fullCrc ∧ b = s.rxFcrc ∧ s.rxCap.toNat < s.rxLen.toNat ∨
      i = .rxStopBad b ∧ s.rxSt = .stop ∧ b ≠ 0xFE) →
    exec i s = .next
      { s with rxSt := .waitStart, rxLen := 0, rxIdx := 0, rxHcrc := 0, rxFcrc := 0 }

/-- R129 and R130: the data-start marker is folded into the full CRC, which is 0xEF after it where it was 0x00,
and PAYLOAD is entered, or FULL_CRC where the payload is empty. -/
def Obligations.DataStartMarkerOpensPayload : Prop :=
  (∀ s : State, s.rxArmed = true → s.rxSt = .dataStart → s.rxLen ≠ 0 →
    exec .rxDsOk s = .next
      { s with rxFcrc := crc8Update s.rxFcrc 0xFB, rxIdx := 0, rxSt := .payload }) ∧
  (∀ s : State, s.rxArmed = true → s.rxSt = .dataStart → s.rxLen = 0 →
    exec .rxDsOk0 s = .next { s with rxFcrc := crc8Update s.rxFcrc 0xFB, rxSt := .fullCrc }) ∧
  crc8Update 0x00 0xFB = 0xEF

/-- R132, R134: a payload byte within capacity is written at index `RX_IDX`, folded and counted; every other byte
of memory reads as before; the last byte leads to FULL_CRC. Where the host wrote that byte while this request was armed,
what the byte then holds is not said (R66, U5: the host's write may stand; a free value, log 10). -/
def Obligations.PayloadByteIsStored : Prop :=
  ∀ (s : State) (b : Byte), s.rxArmed = true → s.rxSt = .payload → s.rxIdx.toNat < s.rxCap.toNat →
    s.rxCap.toNat ≤ s.rxBufSize →
    ∃ t, exec (.rxPayStore b) s = .next t ∧
      t = { s with
        mem := t.mem
        rxBufWrs := s.rxBufWrs ++ [(s.rxIdx, b)]
        rxFcrc := crc8Update s.rxFcrc b
        rxIdx := s.rxIdx + 1
        rxSt := if s.rxIdx + 1 = s.rxLen then .fullCrc else .payload } ∧
      (s.rxAddr s.rxIdx ∉ s.raced → t.mem.read (s.rxAddr s.rxIdx) = b) ∧
      ∀ a, a ≠ s.rxAddr s.rxIdx → t.mem.read a = s.mem.read a

/-- R133, R134: a payload byte beyond capacity is folded and counted, and no byte of memory changes. -/
def Obligations.PayloadByteIsDropped : Prop :=
  ∀ (s : State) (b : Byte), s.rxArmed = true → s.rxSt = .payload → s.rxCap.toNat ≤ s.rxIdx.toNat →
    exec (.rxPayDrop b) s = .next
      { s with
        rxFcrc := crc8Update s.rxFcrc b
        rxIdx := s.rxIdx + 1
        rxSt := if s.rxIdx + 1 = s.rxLen then .fullCrc else .payload }

/-- R136: RX_FC_OK, with the length at most the capacity, equal included. -/
def Obligations.FullCrcMatchWaitsForStop : Prop :=
  ∀ s : State, s.rxArmed = true → s.rxSt = .fullCrc → s.rxLen.toNat ≤ s.rxCap.toNat →
    exec (.rxFcOk s.rxFcrc) s = .next { s with rxSt := .stop }

/-- R139: the stop marker accepts the frame: `rx_resp(OK, RX_LEN)` with the length from before the step, status
bits 17:16 zero and the length in bits 15:0 (R82); the engine is disarmed and cleared. -/
def Obligations.StopMarkerAcceptsTheFrame : Prop :=
  ∀ s : State, s.rxArmed = true → s.rxSt = .stop →
    ∃ w : RxRespWord, exec .rxStopOk s = .next
      { s with
        rxPending := some w, rxResps := s.rxResps ++ [w], rxArmed := false
        rxSt := .waitStart, rxLen := 0, rxIdx := 0, rxHcrc := 0, rxFcrc := 0 } ∧
      w.extractLsb' 16 2 = 0 ∧ w.extractLsb' 0 16 = s.rxLen

/-- R141: an error word ends the request in any state: `rx_resp(IO_ERROR, 0)`, word 0x10000; the engine is disarmed
and cleared; the low bits of the word do not matter (R83). -/
def Obligations.SourceErrorEndsTheRequest : Prop :=
  ∀ (s : State) (x : Byte), s.rxArmed = true →
    exec (.rxIoerr x) s = .next
      { s with
        rxPending := some 0x10000#18, rxResps := s.rxResps ++ [0x10000#18], rxArmed := false
        rxSt := .waitStart, rxLen := 0, rxIdx := 0, rxHcrc := 0, rxFcrc := 0 }

/-! ## The transmit engine, operation by operation (42_tx_framer.md) -/

/-- R171: no payload and a length other than 0 is answered NO_PAYLOAD, whatever the frame size; nothing is
read or sent. -/
def Obligations.MissingPayloadIsAnswered : Prop :=
  ∀ (s : State) (len : Half), s.txSt = .idle → len ≠ 0 →
    exec (.txReqNopay len) s = .next { s with txPending := some 1#3, txResps := s.txResps ++ [1#3] }

/-- R172: a frame larger than `TX_FRAME_MAX` is answered FRAME_TOO_LARGE; nothing is read or sent. -/
def Obligations.OversizeRequestIsAnswered : Prop :=
  ∀ (s : State) (present : Bool) (len : Half), s.txSt = .idle → (present = true ∨ len = 0) →
    s.txFrameMax < len.toNat + 7 →
    exec (.txReqToobig present len) s = .next
      { s with txPending := some 2#3, txResps := s.txResps ++ [2#3] }

/-- R174: the request that passes both checks builds the frame of the payload bytes as they are now and hands it
over as one write; no byte of memory changes. -/
def Obligations.SendBuildsAndHandsOverTheFrame : Prop :=
  ∀ (s : State) (present : Bool) (len : Half), s.txSt = .idle → (present = true ∨ len = 0) →
    len.toNat + 7 ≤ s.txFrameMax →
    let p := (List.range len.toNat).map (fun i => s.mem.read (s.txBase + i))
    exec (.txReqSend present len) s = .next
      { s with
        txLen := len, txFrame := buildFrame p, txSt := .waitSink
        sinkWrites := s.sinkWrites ++ [buildFrame p] }

/-- R175, R176: the sink's count ends the request, OK where it is the frame size and SHORT_WRITE otherwise, larger
counts included. The counted leading bytes of the frame are on the line (R240; the record of them is the model's,
log 13). -/
def Obligations.SinkCountEndsTheRequest : Prop :=
  ∀ (s : State) (n : BitVec 17), s.txSt = .waitSink →
    (n.toNat = s.txLen.toNat + 7 →
      exec (.txSinkOk n) s = .next
        { s with
          txSt := .idle, txLen := 0, txFrame := []
          txPending := some 0#3, txResps := s.txResps ++ [0#3]
          line := s.line ++ s.txFrame.take n.toNat }) ∧
    (n.toNat ≠ s.txLen.toNat + 7 →
      exec (.txSinkShort n) s = .next
        { s with
          txSt := .idle, txLen := 0, txFrame := []
          txPending := some 3#3, txResps := s.txResps ++ [3#3]
          line := s.line ++ s.txFrame.take n.toNat })

/-- R177: the sink's error ends the request with SINK_ERROR, whatever the other bits of its word; some prefix of
the frame is on the line (U7), and which one is a free value (log 13, log 18). -/
def Obligations.SinkErrorEndsTheRequest : Prop :=
  ∀ (s : State) (x : BitVec 17), s.txSt = .waitSink →
    ∃ t, exec (.txSinkErr x) s = .next t ∧
      t = { s with
        txSt := .idle, txLen := 0, txFrame := []
        txPending := some 4#3, txResps := s.txResps ++ [4#3]
        line := t.line, free := t.free } ∧
      ∃ pre, pre <+: s.txFrame ∧ t.line = s.line ++ pre

/-- R178: a sink answer while IDLE, whatever its word, is consumed and nothing else changes. R231: a reset in WAIT_SINK
leaves a write whose answer may still arrive, and when it does, it is ignored in IDLE and in WAIT_SINK alike: it gives no
response and ends no request, and that write is answered (R240). (That the script says which write an answer is for, and
the count of writes cut off, are the model's form: log 24.) -/
def Obligations.StraySinkAnswerIsIgnored : Prop :=
  (∀ (s : State) (e : Bool) (n : BitVec 17), s.txSt = .idle → exec (.txSinkStray e n) s = .next s) ∧
  (∀ s t : State, s.resetDone = true → exec .reset s = .next t →
    t.cutOffWrites = if s.txSt = .waitSink then s.cutOffWrites + 1 else s.cutOffWrites) ∧
  (∀ (s : State) (w : SinkWord) (es : List Event) (n : Nat), s.resetDone = true → s.noHeldReady →
    s.script = .staleSinkResp w :: es → s.cutOffWrites = n + 1 →
    step s = .next { s with script := es, cutOffWrites := n })

/-! ## Reset (70_reset_and_hazards.md) -/

/-- R230, R231, R232: in every state RESET sets every register to its reset value, gives no response and leaves none
pending, and changes neither the memory nor the words waiting in the source nor the frames handed to the sink. (Not
claimed here: that held requests are lost, log 14, and how much of a frame cut off is added to the line, log 13.) -/
def Obligations.ResetSetsEveryRegister : Prop :=
  ∀ s : State, ∃ t, exec .reset s = .next t ∧
    t.rxArmed = false ∧ t.rxSt = .waitStart ∧ t.rxLen = 0 ∧ t.rxIdx = 0 ∧ t.rxHcrc = 0 ∧ t.rxFcrc = 0 ∧
    t.rxCap = 0 ∧ t.txSt = .idle ∧ t.txLen = 0 ∧ t.txFrame = [] ∧ t.resetDone = true ∧
    t.rxPending = none ∧ t.txPending = none ∧ t.rxResps = s.rxResps ∧ t.txResps = s.txResps ∧
    (∀ a, t.mem.read a = s.mem.read a) ∧ t.source = s.source ∧ t.sinkWrites = s.sinkWrites ∧
    t.rxBufWrs = s.rxBufWrs ∧ s.line <+: t.line ∧ t.script = s.script ∧ t.endless = s.endless ∧
    t.txFrameMax = s.txFrameMax ∧ t.rxBufSize = s.rxBufSize ∧ t.rxBase = s.rxBase ∧ t.txBase = s.txBase

/-- R233: before the first reset, a step that is not the reset is refused, and the reset runs. -/
def Obligations.OnlyResetRunsBeforeTheFirstReset : Prop :=
  ∀ s : State, s.resetDone = false →
    (s.script.head? ≠ some (.port .rst) → step s = .refused .beforeFirstReset) ∧
    (∀ es, s.script = .port .rst :: es → ∃ t, step s = .next t ∧ t.resetDone = true)

/-! ## Memory, ordering and the host's duties (20_memory.md, 70_reset_and_hazards.md) -/

/-- R52, R53: the only operation that changes a byte of memory is RX_PAY_STORE, it changes only the byte at index
`RX_IDX`, which is below `RX_CAP`, and only while armed. -/
def Obligations.OnlyPayloadStoresChangeMemory : Prop :=
  ∀ (i : Instr) (s t : State) (a : Nat), exec i s = .next t → t.mem.read a ≠ s.mem.read a →
    (∃ b, i = .rxPayStore b) ∧ a = s.rxAddr s.rxIdx ∧ s.rxIdx.toNat < s.rxCap.toNat ∧ s.rxArmed = true

/-- R55, R64: the frame in flight is the one built from the bytes that the accepting step read: no receive operation
and no host action changes it, whatever it does to the memory. -/
def Obligations.FrameInFlightIsASnapshot : Prop :=
  (∀ (i : Instr) (s t : State), isReceiveOp i = true → exec i s = .next t → t.txFrame = s.txFrame) ∧
  (∀ (e : Event) (s t : State), isHostAction e = true → runEvent e s = .next t →
    t.txFrame = s.txFrame ∧ t.txLen = s.txLen ∧ t.txSt = s.txSt)

/-- R237, U11: an `rx_req` whose capacity exceeds the host's buffer is refused, and so is a payload store that
would run with such a capacity. -/
def Obligations.TooSmallABufferIsRefused : Prop :=
  (∀ (s : State) (c : Half), s.rxArmed = false → s.rxBufSize < c.toNat →
    exec (.rxReq c) s = .refused .receiveBufferTooSmall) ∧
  (∀ (s : State) (b : Byte), s.rxArmed = true → s.rxSt = .payload → s.rxIdx.toNat < s.rxCap.toNat →
    s.rxBufSize < s.rxCap.toNat → exec (.rxPayStore b) s = .refused .receiveBufferTooSmall)

/-- R239, U12: no host action that goes through changes a payload byte of the request in flight or of a held request
with a payload. A `txmem` or a write of the receive buffer that would change one is refused (where the write does not
race with an armed engine). (The refusal's reach is the model's: log 11.) And the fourth clause, about a `txmem` (R93)
that changes none: it goes through, it writes offsets 0, 1, … up to 65535 and leaves every other byte as it is, and its
bytes are what a request of that length reads. That it leaves the others, and how far it reaches, is the model's choice:
log 22 (DEDUCED, unsafe for a claim about the bytes beyond the list). -/
def Obligations.PayloadDutyIsChecked : Prop :=
  (∀ (e : Event) (s t : State) (k : Nat), isHostAction e = true → runEvent e s = .next t → s.onDuty k →
    t.mem.read (s.txBase + k) = s.mem.read (s.txBase + k)) ∧
  (∀ (s : State) (bs : List Byte) (k : Nat) (hk : k < bs.length), s.onDuty k →
    s.races (s.txBase + k) = false → bs[k] ≠ s.mem.read (s.txBase + k) →
    hostTxMem bs s = .refused .payloadDutyBroken) ∧
  (∀ (s : State) (i : Half) (b : Byte) (k : Nat), i.toNat < s.rxBufSize → s.onDuty k →
    s.rxAddr i = s.txBase + k → s.rxArmed = false → b ≠ s.mem.read (s.txBase + k) →
    hostWrite i b s = .refused .payloadDutyBroken) ∧
  (∀ (s : State) (bs : List Byte), (∀ k, k < bs.length → s.races (s.txBase + k) = false) →
    (∀ k (hk : k < bs.length), s.onDuty k → bs[k] = s.mem.read (s.txBase + k)) →
    ∃ t, hostTxMem bs s = .next t ∧ t = { s with mem := t.mem } ∧
      (∀ k (hk : k < bs.length), k < 65536 → t.mem.read (s.txBase + k) = bs[k]) ∧
      (∀ a, (a < s.txBase ∨ s.txBase + min bs.length 65536 ≤ a) → t.mem.read a = s.mem.read a) ∧
      (bs.length ≤ 65535 → t.readPayload (BitVec.ofNat 16 bs.length) = bs))

/-- R66: while disarmed, a host read of the receive buffer gives the byte that is there and changes nothing else, and a
host write that keeps the payload duty sets that byte and changes nothing else. While armed both race: a read changes
only the host's record, whatever value it gives (a free value, log 9), a write only that byte, whatever it leaves there
(a free value, log 10), and each the draws of free values; the address written joins those that race in this request, of
which a new request has none (the model's own list, log 10). Beyond the host's buffer both are a fault (the model's
choice, log 20). -/
def Obligations.HostAccessesToTheReceiveBuffer : Prop :=
  (∀ (s : State) (i : Half), i.toNat < s.rxBufSize →
    (s.rxArmed = false →
      hostRead i s = .next { s with hostReads := s.hostReads ++ [(i, s.mem.read (s.rxAddr i))] }) ∧
    (s.rxArmed = true → ∃ v n,
      hostRead i s = .next { s with hostReads := s.hostReads ++ [(i, v)], free := n })) ∧
  (∀ (s : State) (i : Half) (b : Byte), i.toNat < s.rxBufSize → s.rxArmed = false →
    (∀ k, s.onDuty k → s.txBase + k = s.rxAddr i → b = s.mem.read (s.rxAddr i)) →
    ∃ t, hostWrite i b s = .next t ∧ t = { s with mem := t.mem } ∧ t.mem.read (s.rxAddr i) = b ∧
      ∀ a, a ≠ s.rxAddr i → t.mem.read a = s.mem.read a) ∧
  (∀ (s : State) (i : Half) (b : Byte), i.toNat < s.rxBufSize → s.rxArmed = true →
    (∀ k, s.onDuty k → s.txBase + k ≠ s.rxAddr i) →
    ∃ t, hostWrite i b s = .next t ∧ t = { s with mem := t.mem, free := t.free, raced := t.raced } ∧
      (∀ a, a ∈ t.raced ↔ a = s.rxAddr i ∨ a ∈ s.raced) ∧
      ∀ a, a ≠ s.rxAddr i → t.mem.read a = s.mem.read a) ∧
  (∀ (s : State) (i : Half) (b : Byte), s.rxBufSize ≤ i.toNat →
    hostRead i s = .fault .hostOutsideBuffer ∧ hostWrite i b s = .fault .hostOutsideBuffer) ∧
  (∀ (s t : State) (c : Half), exec (.rxReq c) s = .next t → t.raced = [])

/-- R207: a response is given once, stays pending until the host takes it, and none is given while another of its engine
is pending, so responses never queue up. In every step but the reset (R232), for each engine: nothing is given and what
is pending stays; or one response is given where none was pending; or the host takes the pending one. (That the host
takes a pending response, in a step of its own, before its engine takes another request is the model's: log 12.) -/
def Obligations.ResponsesStayUntilTaken : Prop :=
  ∀ s t : State, s.Inv → step s = .next t → (∀ u, ¬ Takes s .rst u) →
    (t.rxResps = s.rxResps ∧ t.rxPending = s.rxPending ∨
      s.rxPending = none ∧ (∃ w, t.rxResps = s.rxResps ++ [w] ∧ t.rxPending = some w) ∨
      t.rxResps = s.rxResps ∧ t.rxPending = none ∧ ((∃ es, s.script = .takeRxResp :: es) ∨ t = s.takeRx)) ∧
    (t.txResps = s.txResps ∧ t.txPending = s.txPending ∨
      s.txPending = none ∧ (∃ w, t.txResps = s.txResps ++ [w] ∧ t.txPending = some w) ∨
      t.txResps = s.txResps ∧ t.txPending = none ∧ ((∃ es, s.script = .takeTxResp :: es) ∨ t = s.takeTx))

/-! ## Whole-machine rules and invariants -/

/-- The state after reset meets the invariant (R28, R38, R39). -/
def Obligations.ResetStateMeetsInvariant : Prop := State.reset.Inv

/-- R28, R39: every step keeps the invariant: the receive registers are those of their row, a disarmed engine is in
WAIT_START, the frame in flight is a well-formed frame of `TX_LEN` payload bytes, no response is pending at an engine
that works on a request (R207; log 12), and the memory keeps its canonical form. -/
def Obligations.EveryStepKeepsInvariant : Prop :=
  ∀ s t : State, s.Inv → step s = .next t → t.Inv

/-- R241: the capacity cannot change while a request is armed. -/
def Obligations.CapacityIsFixedWhileArmed : Prop :=
  ∀ s t : State, s.resetDone = true → step s = .next t → s.rxArmed = true → t.rxArmed = true →
    t.rxCap = s.rxCap

/-- R142: an armed request ends in exactly three ways: a frame is accepted, an I/O error, or a reset; the first two
give exactly one response and the reset gives none. -/
def Obligations.ARequestEndsInThreeWays : Prop :=
  ∀ s t : State, s.resetDone = true → step s = .next t → s.rxArmed = true → t.rxArmed = false →
    ∃ (u : State) (w : PortWord) (i : Instr), Takes s w u ∧ decode u.ctx w = .ok i ∧
      (i = .rxStopOk ∧ t.rxResps = s.rxResps ++ [rxRespWord .ok s.rxLen] ∧
          t.rxPending = some (rxRespWord .ok s.rxLen) ∨
        (∃ x, i = .rxIoerr x) ∧ t.rxResps = s.rxResps ++ [rxRespWord .ioError 0] ∧
          t.rxPending = some (rxRespWord .ioError 0) ∨
        i = .reset ∧ t.rxResps = s.rxResps ∧ t.rxPending = none)

/-- R37, R182: an operation of one engine changes no register of the other, and no response or record of it. -/
def Obligations.EnginesLeaveEachOtherAlone : Prop :=
  (∀ (i : Instr) (s t : State), isReceiveOp i = true → exec i s = .next t →
    t.txSt = s.txSt ∧ t.txLen = s.txLen ∧ t.txFrame = s.txFrame ∧ t.txResps = s.txResps ∧
    t.txPending = s.txPending ∧ t.txReqs = s.txReqs ∧ t.sinkWrites = s.sinkWrites ∧ t.line = s.line ∧
    t.cutOffWrites = s.cutOffWrites ∧ t.free = s.free) ∧
  (∀ (i : Instr) (s t : State), isTransmitOp i = true → exec i s = .next t →
    t.rxArmed = s.rxArmed ∧ t.rxSt = s.rxSt ∧ t.rxLen = s.rxLen ∧ t.rxIdx = s.rxIdx ∧
    t.rxHcrc = s.rxHcrc ∧ t.rxFcrc = s.rxFcrc ∧ t.rxCap = s.rxCap ∧ t.rxResps = s.rxResps ∧
    t.rxPending = s.rxPending ∧ t.rxReqs = s.rxReqs ∧ t.source = s.source ∧ t.rxBufWrs = s.rxBufWrs ∧
    t.mem = s.mem ∧ t.raced = s.raced)

/-- R182, R206: steps of the two engines can be ordered either way with the same result, where the byte that a payload
store writes is none of the bytes that a send reads (otherwise the two race, R64). -/
def Obligations.EnginesCommute : Prop :=
  ∀ (i j : Instr) (s t u : State), isReceiveOp i = true → isTransmitOp j = true →
    exec i s = .next t → exec j s = .next u →
    (∀ b present len off, i = .rxPayStore b → j = .txReqSend present len → off < len.toNat →
      s.txBase + off ≠ s.rxAddr s.rxIdx) →
    ∃ v, exec j t = .next v ∧ exec i u = .next v

/-- No step changes a parameter: `TX_FRAME_MAX` (R6), the length and the placement of the memories (R63). That a
parameter is a field of State that no step writes is the model's choice: log 5, log 6, log 7. -/
def Obligations.ParametersNeverChange : Prop :=
  ∀ s t : State, step s = .next t →
    t.txFrameMax = s.txFrameMax ∧ t.rxBufSize = s.rxBufSize ∧ t.rxBase = s.rxBase ∧ t.txBase = s.txBase

/-- R91, R203, R204: no step produces a reserved status, and an IO_ERROR response carries length 0. -/
def Obligations.ReservedStatusesAreNeverProduced : Prop :=
  ∀ s t : State, step s = .next t →
    (∀ w ∈ t.rxResps, w ∈ s.rxResps ∨ w.toNat < 65536 ∨ w = 0x10000#18) ∧
    (∀ w ∈ t.txResps, w ∈ s.txResps ∨ w.toNat ≤ 4) ∧
    (∀ w, t.rxPending = some w → s.rxPending = some w ∨ w.toNat < 65536 ∨ w = 0x10000#18) ∧
    (∀ w, t.txPending = some w → s.txPending = some w ∨ w.toNat ≤ 4)

/-- R179, R180: a request hands over at most one frame and gets one answer. TX_REQ_SEND writes one whole frame to the
sink and gives no answer yet; TX_REQ_NOPAY and TX_REQ_TOOBIG give exactly one answer and write nothing; in WAIT_SINK the
sink's word, whichever it is, gives the frame in flight exactly one answer and writes nothing; and a stray sink word in
IDLE changes nothing. -/
def Obligations.OneRequestOneAnswer : Prop :=
  ∀ (i : Instr) (s t : State), isTransmitOp i = true → exec i s = .next t →
    (∃ p len, i = .txReqSend p len) ∧ s.txSt = .idle ∧ t.txSt = .waitSink ∧
      t.sinkWrites = s.sinkWrites ++ [t.txFrame] ∧ t.txResps = s.txResps ∧ t.txPending = s.txPending ∨
    ((∃ len, i = .txReqNopay len) ∨ ∃ p len, i = .txReqToobig p len) ∧ s.txSt = .idle ∧ t.txSt = .idle ∧
      t.sinkWrites = s.sinkWrites ∧ (∃ c, t.txResps = s.txResps ++ [c] ∧ t.txPending = some c) ∨
    ((∃ n, i = .txSinkOk n) ∨ (∃ n, i = .txSinkShort n) ∨ ∃ x, i = .txSinkErr x) ∧ s.txSt = .waitSink ∧
      t.txSt = .idle ∧ t.sinkWrites = s.sinkWrites ∧ (∃ c, t.txResps = s.txResps ++ [c] ∧ t.txPending = some c) ∨
    (∃ e n, i = .txSinkStray e n) ∧ s.txSt = .idle ∧ t = s

/-- R217, R218: the runs that never end are admitted. (a), (c): with nothing offered, armed or not, in IDLE or in
WAIT_SINK, a run of any length waits and all state is kept. (b): a source that goes on for ever with bytes that are no
start marker keeps an armed engine busy in a run of any length, and nothing is answered; and where the source's stream
is any at all, its next word is delivered. (That a waiting machine answers the same state, and the forms of an endless
input, are the model's: log 3, log 25.) -/
def Obligations.RunsThatNeverEndAreAdmitted : Prop :=
  (∀ (s : State) (n : Nat), s.resetDone = true → s.script = [] → s.endless = .stops → s.noHeldReady →
    (s.rxArmed = false ∨ s.source = []) → Sys2Proof.core.run n s = .next s) ∧
  (∀ (s : State) (bs : List Byte) (n : Nat), s.resetDone = true → s.noHeldReady → s.rxArmed = true →
    s.rxSt = .waitStart → s.source = [] → s.script = [] → s.endless = .repeats (deliver bs) →
    (0xFA : Byte) ∉ bs →
    ∃ t, Sys2Proof.core.run n s = .next t ∧ t.rxArmed = true ∧ t.rxSt = .waitStart ∧
      t.rxResps = s.rxResps ∧ t.rxPending = s.rxPending ∧ t.mem = s.mem) ∧
  (∀ (s : State) (n : Nat), s.resetDone = true → s.noHeldReady → (s.rxArmed = false ∨ s.source = []) →
    s.script = [] → s.endless = .streams n →
    step s = .next { s with script := [.port (.src (Config.streamWord n))], endless := .streams (n + 1) })

/-- R93, R120, R170: a held request is taken as the step right after the one that frees its engine: a held `rx_req` arms
with its capacity, a held `tx_req` runs as what it decodes to, before the script's next line. A response that is still
pending is taken by the host first (the model's choice, log 12), and a reset loses the held requests (R206, D35, R236;
log 14). Each clause is about states in which the other engine has no held request that it could take: no run from reset
reaches a state where both have one, and the order there is the model's choice, log 2. -/
def Obligations.HeldRequestsAreTakenNext : Prop :=
  (∀ (s : State) (c : Half) (cs : List Half), s.resetDone = true → s.rxArmed = false →
    s.rxPending = none → s.rxReqs = c :: cs → (s.txSt = .waitSink ∨ s.txReqs = []) → c.toNat ≤ s.rxBufSize →
    ∃ t, step s = .next t ∧ t.rxArmed = true ∧ t.rxCap = c ∧ t.rxReqs = cs ∧ t.script = s.script) ∧
  (∀ (s : State) (w : TxReqWord) (ws : List TxReqWord), s.resetDone = true → s.txSt = .idle →
    s.txPending = none → s.txReqs = w :: ws → (s.rxArmed = true ∨ s.rxReqs = []) →
    ∃ i t, decode s.ctx (.txReq w) = .ok i ∧ exec i { s with txReqs := ws } = .next t ∧ step s = .next t ∧
      t.txReqs = ws ∧ t.script = s.script) ∧
  (∀ s : State, s.resetDone = true → s.rxArmed = false → s.rxPending ≠ none → s.rxReqs ≠ [] →
    (s.txSt = .waitSink ∨ s.txReqs = []) → step s = .next { s with rxPending := none }) ∧
  (∀ s : State, s.resetDone = true → s.txSt = .idle → s.txPending ≠ none → s.txReqs ≠ [] →
    (s.rxArmed = true ∨ s.rxReqs = []) → step s = .next { s with txPending := none }) ∧
  (∀ s : State, ∃ t, exec .reset s = .next t ∧ t.rxReqs = [] ∧ t.txReqs = [])

/-! ## The receive engine over a byte stream (41_rx_framer.md R144 to R150) -/

/-- R150: the round trip. An engine armed in WAIT_START to which the source delivers the frame of a payload within
capacity answers `rx_resp(OK, len(P))` on its last byte, and the buffer then holds the payload, but for a byte
that the host wrote while the request was armed (R66, U5; log 10); no other byte of memory has changed. -/
def Obligations.RoundTrip : Prop :=
  ∀ (s : State) (p : List Byte) (rest : List Event), s.Listening (buildFrame p) rest →
    p.length ≤ s.rxCap.toNat →
    ∃ t, Sys2Proof.core.run (p.length + 7) s = .next t ∧
      t.rxArmed = false ∧ t.script = rest ∧
      t.rxResps = s.rxResps ++ [rxRespWord .ok (BitVec.ofNat 16 p.length)] ∧
      t.rxPending = some (rxRespWord .ok (BitVec.ofNat 16 p.length)) ∧
      (∀ i (h : i < p.length), s.rxBase + i ∉ s.raced → t.mem.read (s.rxBase + i) = p[i]) ∧
      (∀ a, (a < s.rxBase ∨ s.rxBase + p.length ≤ a) → t.mem.read a = s.mem.read a)

/-- R144: what acceptance means. If an engine armed in WAIT_START is first disarmed by the last of the bytes
delivered, those bytes end in a well-formed frame within capacity, whose length is the one answered and whose payload
the buffer holds, but for a byte that the host wrote while the request was armed (R66, U5; log 10). -/
def Obligations.AcceptanceMeansAFrame : Prop :=
  ∀ (s t : State) (bs : List Byte) (rest : List Event), s.Listening bs rest →
    Sys2Proof.core.run bs.length s = .next t → t.rxArmed = false →
    (∀ k u, k < bs.length → Sys2Proof.core.run k s = .next u → u.rxArmed = true) →
    ∃ noise f, bs = noise ++ f ∧ acceptable f s.rxCap = true ∧
      t.rxResps = s.rxResps ++ [rxRespWord .ok (declaredLen f)] ∧
      t.rxPending = some (rxRespWord .ok (declaredLen f)) ∧
      (∀ i, i < (declaredLen f).toNat → s.rxBase + i ∉ s.raced →
        some (t.mem.read (s.rxBase + i)) = f[5 + i]?)

/-- R147, its sufficient condition: noise without the byte 0xFA does not lose the frame after it. -/
def Obligations.FrameAfterNoiseIsReturned : Prop :=
  ∀ (s : State) (noise f : List Byte) (rest : List Event), s.Listening (noise ++ f) rest →
    (0xFA : Byte) ∉ noise → acceptable f s.rxCap = true →
    ∃ t, Sys2Proof.core.run (noise.length + f.length) s = .next t ∧ t.rxArmed = false ∧
      t.rxResps = s.rxResps ++ [rxRespWord .ok (declaredLen f)] ∧
      t.rxPending = some (rxRespWord .ok (declaredLen f))

/-- R148, R138: reject late. A well-formed frame longer than the capacity is read to its end and answered nothing: the
engine is armed and in WAIT_START again, and the first `RX_CAP` payload bytes are in the buffer, but for a
byte that the host wrote while the request was armed (R66, U5; log 10). -/
def Obligations.OversizeFrameIsRejectedLate : Prop :=
  ∀ (s : State) (p : List Byte) (rest : List Event), s.Listening (buildFrame p) rest →
    s.rxCap.toNat < p.length → p.length ≤ 65535 →
    ∃ t, Sys2Proof.core.run (p.length + 7) s = .next t ∧
      t.rxArmed = true ∧ t.rxSt = .waitStart ∧ t.script = rest ∧ t.rxResps = s.rxResps ∧
      (∀ i (h : i < p.length), i < s.rxCap.toNat → s.rxBase + i ∉ s.raced → t.mem.read (s.rxBase + i) = p[i]) ∧
      (∀ a, (a < s.rxBase ∨ s.rxBase + s.rxCap.toNat ≤ a) → t.mem.read a = s.mem.read a)

/-- R146, by the spec's own counterexample (V-RX-10, 90_conflicts.md C1): the scan never backtracks, so one byte 0xFA
before a frame can lose it: the engine reads the frame's start marker as a length byte, abandons, and answers nothing. -/
def Obligations.StrayStartMarkerLosesTheFrame : Prop :=
  ∀ (s : State) (rest : List Event), s.Listening (0xFA :: buildFrame [0x41]) rest →
    ∃ t, Sys2Proof.core.run 9 s = .next t ∧
      t.rxArmed = true ∧ t.rxSt = .waitStart ∧ t.rxResps = s.rxResps ∧ t.script = rest ∧
      ∀ a, t.mem.read a = s.mem.read a
end

