-- ==== Sys2Proof/Laws/Claims.lean ====
section
/-! SUPPORT. Small facts about the terms that claims are made in. -/

namespace Sys2Proof.Machine

/-- A set bit of an error pattern is a bit of one of its bytes. -/
theorem errorBit_lt {e : List Byte} {p : Nat} (h : errorBit e p = true) : p < 8 * e.length := by
  by_contra hp
  have hl : e.length ≤ p / 8 := by omega
  simp [errorBit, List.getElem?_eq_none hl] at h

/-- With nothing in flight and nothing held the host is under no duty. -/
theorem State.not_onDuty {s : State} (hi : s.txSt = .idle) (hq : s.txReqs = []) (k : Nat) : ¬ s.onDuty k := by
  simp [State.onDuty, hi, hq]

end Sys2Proof.Machine
end

