-- ==== Sys2Proof/Laws/Memory.lean ====
section
/-! SUPPORT. Reading and writing memory: read after write, and every operation keeps the canonical form. -/

namespace Sys2Proof.Machine

theorem Memory.peek_put_same (m : Memory) (a : Nat) (b : Byte) : (m.put a b).peek a = some b := by
  induction m with
  | nil => simp [Memory.put, Memory.peek]
  | cons c m ih =>
    simp only [Memory.put]
    split
    · simp [Memory.peek]
    · split
      · simp [Memory.peek]
      · simp_all [Memory.peek]

theorem Memory.peek_put_other (m : Memory) {a a' : Nat} (b : Byte) (h : a' ≠ a) :
    (m.put a b).peek a' = m.peek a' := by
  induction m with
  | nil => simp [Memory.put, Memory.peek, h]
  | cons c m ih =>
    simp only [Memory.put]
    split
    · simp [Memory.peek, h]
    · split
      · rename_i hc
        subst hc
        simp [Memory.peek, h]
      · simp [Memory.peek, ih]

@[simp] theorem Memory.read_put_same (m : Memory) (a : Nat) (b : Byte) : (m.put a b).read a = b := by
  simp [Memory.read, Memory.peek_put_same]

theorem Memory.read_put_other (m : Memory) {a a' : Nat} (b : Byte) (h : a' ≠ a) :
    (m.put a b).read a' = m.read a' := by
  simp [Memory.read, Memory.peek_put_other m b h]

/-- A write brings in no address but its own. -/
theorem Memory.mem_put (m : Memory) (a : Nat) (b : Byte) (x : Host.Cell) (hx : x ∈ m.put a b) :
    x = (a, b) ∨ x ∈ m := by
  induction m with
  | nil => simpa [Memory.put] using hx
  | cons c m ih =>
    simp only [Memory.put] at hx
    split at hx
    · simpa using hx
    · split at hx
      · simp only [List.mem_cons] at hx ⊢
        tauto
      · simp only [List.mem_cons] at hx ⊢
        rcases hx with hx | hx
        · exact .inr (.inl hx)
        · rcases ih hx with h | h
          · exact .inl h
          · exact .inr (.inr h)

/-- A write keeps the canonical form. -/
theorem Memory.wf_put {m : Memory} (h : m.wf) (a : Nat) (b : Byte) : (m.put a b).wf := by
  induction m with
  | nil => simp [Memory.put]
  | cons c m ih =>
    obtain ⟨hc, hm⟩ := List.pairwise_cons.mp h
    simp only [Memory.put]
    split
    · rename_i hlt
      refine List.pairwise_cons.mpr ⟨fun x hx => ?_, h⟩
      rcases List.mem_cons.mp hx with rfl | hx
      · exact hlt
      · exact lt_trans hlt (hc x hx)
    · split
      · rename_i heq
        subst heq
        exact List.pairwise_cons.mpr ⟨hc, hm⟩
      · refine List.pairwise_cons.mpr ⟨fun x hx => ?_, ih hm⟩
        rcases Memory.mem_put m a b x hx with rfl | hx
        · show c.1 < a
          omega
        · exact hc x hx

/-- A host write changes the memory at one address: where it does not race, to the byte written; where it does, that
address joins those that race. -/
theorem State.hostPut_spec (s : State) (a : Nat) (b : Byte) :
    ∃ v n r, s.hostPut a b = { s with mem := s.mem.put a v, free := n, raced := r } ∧
      (s.races a = false → v = b ∧ n = s.free ∧ r = s.raced) ∧
      (s.races a = true → ∀ c, c ∈ r ↔ c = a ∨ c ∈ s.raced) := by
  unfold State.hostPut
  split
  · rename_i h
    exact ⟨_, _, _, rfl, fun h' => by simp_all, fun _ _ => List.mem_insert_iff⟩
  · rename_i h
    exact ⟨b, s.free, s.raced, rfl, fun _ => ⟨rfl, rfl, rfl⟩, fun h' => absurd h' h⟩

/-- Host writes of bytes change memory at their own addresses only and keep its form; a byte whose write does not race
is there after them, and where none races no free value is drawn and no address joins those that race. -/
theorem State.hostPutAll_spec (bs : List Byte) (a : Nat) (s : State) :
    ∃ m n r, s.hostPutAll a bs = { s with mem := m, free := n, raced := r } ∧ (s.mem.wf → m.wf) ∧
      (∀ c, c < a ∨ a + bs.length ≤ c → m.peek c = s.mem.peek c) ∧
      (∀ i (h : i < bs.length), s.races (a + i) = false → m.peek (a + i) = some bs[i]) ∧
      ((∀ i, i < bs.length → s.races (a + i) = false) → n = s.free ∧ r = s.raced) := by
  induction bs generalizing a s with
  | nil => exact ⟨s.mem, s.free, s.raced, rfl, id, fun _ _ => rfl, fun i h => by simp at h, fun _ => ⟨rfl, rfl⟩⟩
  | cons b bs ih =>
    obtain ⟨v, n, q, hv, hb, -⟩ := State.hostPut_spec s a b
    obtain ⟨m, k, r, hm, hw, hout, hin, hf⟩ := ih (a + 1) (s.hostPut a b)
    rw [hv] at hm hw hout hin hf
    refine ⟨m, k, r, ?_, fun h => hw (Memory.wf_put h a v), fun c hc => ?_, fun i hi hr => ?_, fun hr => ?_⟩
    · simp only [State.hostPutAll, hv, hm]
    · simp only [List.length_cons] at hc
      rw [hout c (by omega)]
      exact Memory.peek_put_other _ _ (by omega)
    · cases i with
      | zero =>
        rw [Nat.add_zero] at hr ⊢
        rw [hout a (by omega)]
        simp [Memory.peek_put_same, (hb hr).1]
      | succ i =>
        rw [show a + (i + 1) = a + 1 + i by omega] at hr ⊢
        simpa using hin i (by simpa using hi) hr
    · obtain ⟨hk, hq⟩ := hf (fun i hi => by
        have := hr (i + 1) (by simpa using hi)
        rwa [show a + (i + 1) = a + 1 + i by omega] at this)
      exact ⟨hk.trans (hb (hr 0 (by simp))).2.1, hq.trans (hb (hr 0 (by simp))).2.2⟩

/-- The memory after reset has the canonical form. -/
theorem State.reset_mem_wf : State.reset.mem.wf := List.Pairwise.nil

end Sys2Proof.Machine
end

