-- ==== Sys2Proof/Laws/State.lean ====
section
/-! SUPPORT. For each named update of the state, what every field is after it. -/

namespace Sys2Proof.Machine

variable (s : State)

/-! ### abandon -/

@[simp] theorem State.abandon_resetDone : s.abandon.resetDone = s.resetDone := rfl
@[simp] theorem State.abandon_rxArmed : s.abandon.rxArmed = s.rxArmed := rfl
@[simp] theorem State.abandon_rxSt : s.abandon.rxSt = .waitStart := rfl
@[simp] theorem State.abandon_rxLen : s.abandon.rxLen = 0 := rfl
@[simp] theorem State.abandon_rxIdx : s.abandon.rxIdx = 0 := rfl
@[simp] theorem State.abandon_rxHcrc : s.abandon.rxHcrc = 0 := rfl
@[simp] theorem State.abandon_rxFcrc : s.abandon.rxFcrc = 0 := rfl
@[simp] theorem State.abandon_rxCap : s.abandon.rxCap = s.rxCap := rfl
@[simp] theorem State.abandon_txSt : s.abandon.txSt = s.txSt := rfl
@[simp] theorem State.abandon_txLen : s.abandon.txLen = s.txLen := rfl
@[simp] theorem State.abandon_txFrame : s.abandon.txFrame = s.txFrame := rfl
@[simp] theorem State.abandon_txFrameMax : s.abandon.txFrameMax = s.txFrameMax := rfl
@[simp] theorem State.abandon_rxBufSize : s.abandon.rxBufSize = s.rxBufSize := rfl
@[simp] theorem State.abandon_rxBase : s.abandon.rxBase = s.rxBase := rfl
@[simp] theorem State.abandon_txBase : s.abandon.txBase = s.txBase := rfl
@[simp] theorem State.abandon_mem : s.abandon.mem = s.mem := rfl
@[simp] theorem State.abandon_source : s.abandon.source = s.source := rfl
@[simp] theorem State.abandon_rxReqs : s.abandon.rxReqs = s.rxReqs := rfl
@[simp] theorem State.abandon_txReqs : s.abandon.txReqs = s.txReqs := rfl
@[simp] theorem State.abandon_rxPending : s.abandon.rxPending = s.rxPending := rfl
@[simp] theorem State.abandon_txPending : s.abandon.txPending = s.txPending := rfl
@[simp] theorem State.abandon_rxResps : s.abandon.rxResps = s.rxResps := rfl
@[simp] theorem State.abandon_txResps : s.abandon.txResps = s.txResps := rfl
@[simp] theorem State.abandon_rxBufWrs : s.abandon.rxBufWrs = s.rxBufWrs := rfl
@[simp] theorem State.abandon_sinkWrites : s.abandon.sinkWrites = s.sinkWrites := rfl
@[simp] theorem State.abandon_line : s.abandon.line = s.line := rfl
@[simp] theorem State.abandon_hostReads : s.abandon.hostReads = s.hostReads := rfl
@[simp] theorem State.abandon_script : s.abandon.script = s.script := rfl
@[simp] theorem State.abandon_endless : s.abandon.endless = s.endless := rfl
@[simp] theorem State.abandon_free : s.abandon.free = s.free := rfl
@[simp] theorem State.abandon_raced : s.abandon.raced = s.raced := rfl
@[simp] theorem State.abandon_cutOffWrites : s.abandon.cutOffWrites = s.cutOffWrites := rfl

/-! ### giveRx -/

@[simp] theorem State.giveRx_resetDone (w : RxRespWord) : (s.giveRx w).resetDone = s.resetDone := rfl
@[simp] theorem State.giveRx_rxArmed (w : RxRespWord) : (s.giveRx w).rxArmed = s.rxArmed := rfl
@[simp] theorem State.giveRx_rxSt (w : RxRespWord) : (s.giveRx w).rxSt = s.rxSt := rfl
@[simp] theorem State.giveRx_rxLen (w : RxRespWord) : (s.giveRx w).rxLen = s.rxLen := rfl
@[simp] theorem State.giveRx_rxIdx (w : RxRespWord) : (s.giveRx w).rxIdx = s.rxIdx := rfl
@[simp] theorem State.giveRx_rxHcrc (w : RxRespWord) : (s.giveRx w).rxHcrc = s.rxHcrc := rfl
@[simp] theorem State.giveRx_rxFcrc (w : RxRespWord) : (s.giveRx w).rxFcrc = s.rxFcrc := rfl
@[simp] theorem State.giveRx_rxCap (w : RxRespWord) : (s.giveRx w).rxCap = s.rxCap := rfl
@[simp] theorem State.giveRx_txSt (w : RxRespWord) : (s.giveRx w).txSt = s.txSt := rfl
@[simp] theorem State.giveRx_txLen (w : RxRespWord) : (s.giveRx w).txLen = s.txLen := rfl
@[simp] theorem State.giveRx_txFrame (w : RxRespWord) : (s.giveRx w).txFrame = s.txFrame := rfl
@[simp] theorem State.giveRx_txFrameMax (w : RxRespWord) : (s.giveRx w).txFrameMax = s.txFrameMax := rfl
@[simp] theorem State.giveRx_rxBufSize (w : RxRespWord) : (s.giveRx w).rxBufSize = s.rxBufSize := rfl
@[simp] theorem State.giveRx_rxBase (w : RxRespWord) : (s.giveRx w).rxBase = s.rxBase := rfl
@[simp] theorem State.giveRx_txBase (w : RxRespWord) : (s.giveRx w).txBase = s.txBase := rfl
@[simp] theorem State.giveRx_mem (w : RxRespWord) : (s.giveRx w).mem = s.mem := rfl
@[simp] theorem State.giveRx_source (w : RxRespWord) : (s.giveRx w).source = s.source := rfl
@[simp] theorem State.giveRx_rxReqs (w : RxRespWord) : (s.giveRx w).rxReqs = s.rxReqs := rfl
@[simp] theorem State.giveRx_txReqs (w : RxRespWord) : (s.giveRx w).txReqs = s.txReqs := rfl
@[simp] theorem State.giveRx_rxPending (w : RxRespWord) : (s.giveRx w).rxPending = some w := rfl
@[simp] theorem State.giveRx_txPending (w : RxRespWord) : (s.giveRx w).txPending = s.txPending := rfl
@[simp] theorem State.giveRx_rxResps (w : RxRespWord) : (s.giveRx w).rxResps = s.rxResps ++ [w] := rfl
@[simp] theorem State.giveRx_txResps (w : RxRespWord) : (s.giveRx w).txResps = s.txResps := rfl
@[simp] theorem State.giveRx_rxBufWrs (w : RxRespWord) : (s.giveRx w).rxBufWrs = s.rxBufWrs := rfl
@[simp] theorem State.giveRx_sinkWrites (w : RxRespWord) : (s.giveRx w).sinkWrites = s.sinkWrites := rfl
@[simp] theorem State.giveRx_line (w : RxRespWord) : (s.giveRx w).line = s.line := rfl
@[simp] theorem State.giveRx_hostReads (w : RxRespWord) : (s.giveRx w).hostReads = s.hostReads := rfl
@[simp] theorem State.giveRx_script (w : RxRespWord) : (s.giveRx w).script = s.script := rfl
@[simp] theorem State.giveRx_endless (w : RxRespWord) : (s.giveRx w).endless = s.endless := rfl
@[simp] theorem State.giveRx_free (w : RxRespWord) : (s.giveRx w).free = s.free := rfl
@[simp] theorem State.giveRx_raced (w : RxRespWord) : (s.giveRx w).raced = s.raced := rfl
@[simp] theorem State.giveRx_cutOffWrites (w : RxRespWord) : (s.giveRx w).cutOffWrites = s.cutOffWrites := rfl

/-! ### giveTx -/

@[simp] theorem State.giveTx_resetDone (w : TxRespWord) : (s.giveTx w).resetDone = s.resetDone := rfl
@[simp] theorem State.giveTx_rxArmed (w : TxRespWord) : (s.giveTx w).rxArmed = s.rxArmed := rfl
@[simp] theorem State.giveTx_rxSt (w : TxRespWord) : (s.giveTx w).rxSt = s.rxSt := rfl
@[simp] theorem State.giveTx_rxLen (w : TxRespWord) : (s.giveTx w).rxLen = s.rxLen := rfl
@[simp] theorem State.giveTx_rxIdx (w : TxRespWord) : (s.giveTx w).rxIdx = s.rxIdx := rfl
@[simp] theorem State.giveTx_rxHcrc (w : TxRespWord) : (s.giveTx w).rxHcrc = s.rxHcrc := rfl
@[simp] theorem State.giveTx_rxFcrc (w : TxRespWord) : (s.giveTx w).rxFcrc = s.rxFcrc := rfl
@[simp] theorem State.giveTx_rxCap (w : TxRespWord) : (s.giveTx w).rxCap = s.rxCap := rfl
@[simp] theorem State.giveTx_txSt (w : TxRespWord) : (s.giveTx w).txSt = s.txSt := rfl
@[simp] theorem State.giveTx_txLen (w : TxRespWord) : (s.giveTx w).txLen = s.txLen := rfl
@[simp] theorem State.giveTx_txFrame (w : TxRespWord) : (s.giveTx w).txFrame = s.txFrame := rfl
@[simp] theorem State.giveTx_txFrameMax (w : TxRespWord) : (s.giveTx w).txFrameMax = s.txFrameMax := rfl
@[simp] theorem State.giveTx_rxBufSize (w : TxRespWord) : (s.giveTx w).rxBufSize = s.rxBufSize := rfl
@[simp] theorem State.giveTx_rxBase (w : TxRespWord) : (s.giveTx w).rxBase = s.rxBase := rfl
@[simp] theorem State.giveTx_txBase (w : TxRespWord) : (s.giveTx w).txBase = s.txBase := rfl
@[simp] theorem State.giveTx_mem (w : TxRespWord) : (s.giveTx w).mem = s.mem := rfl
@[simp] theorem State.giveTx_source (w : TxRespWord) : (s.giveTx w).source = s.source := rfl
@[simp] theorem State.giveTx_rxReqs (w : TxRespWord) : (s.giveTx w).rxReqs = s.rxReqs := rfl
@[simp] theorem State.giveTx_txReqs (w : TxRespWord) : (s.giveTx w).txReqs = s.txReqs := rfl
@[simp] theorem State.giveTx_rxPending (w : TxRespWord) : (s.giveTx w).rxPending = s.rxPending := rfl
@[simp] theorem State.giveTx_txPending (w : TxRespWord) : (s.giveTx w).txPending = some w := rfl
@[simp] theorem State.giveTx_rxResps (w : TxRespWord) : (s.giveTx w).rxResps = s.rxResps := rfl
@[simp] theorem State.giveTx_txResps (w : TxRespWord) : (s.giveTx w).txResps = s.txResps ++ [w] := rfl
@[simp] theorem State.giveTx_rxBufWrs (w : TxRespWord) : (s.giveTx w).rxBufWrs = s.rxBufWrs := rfl
@[simp] theorem State.giveTx_sinkWrites (w : TxRespWord) : (s.giveTx w).sinkWrites = s.sinkWrites := rfl
@[simp] theorem State.giveTx_line (w : TxRespWord) : (s.giveTx w).line = s.line := rfl
@[simp] theorem State.giveTx_hostReads (w : TxRespWord) : (s.giveTx w).hostReads = s.hostReads := rfl
@[simp] theorem State.giveTx_script (w : TxRespWord) : (s.giveTx w).script = s.script := rfl
@[simp] theorem State.giveTx_endless (w : TxRespWord) : (s.giveTx w).endless = s.endless := rfl
@[simp] theorem State.giveTx_free (w : TxRespWord) : (s.giveTx w).free = s.free := rfl
@[simp] theorem State.giveTx_raced (w : TxRespWord) : (s.giveTx w).raced = s.raced := rfl
@[simp] theorem State.giveTx_cutOffWrites (w : TxRespWord) : (s.giveTx w).cutOffWrites = s.cutOffWrites := rfl

/-! ### endRx -/

@[simp] theorem State.endRx_resetDone (x : RxStatus) (n : Half) : (s.endRx x n).resetDone = s.resetDone := rfl
@[simp] theorem State.endRx_rxArmed (x : RxStatus) (n : Half) : (s.endRx x n).rxArmed = false := rfl
@[simp] theorem State.endRx_rxSt (x : RxStatus) (n : Half) : (s.endRx x n).rxSt = .waitStart := rfl
@[simp] theorem State.endRx_rxLen (x : RxStatus) (n : Half) : (s.endRx x n).rxLen = 0 := rfl
@[simp] theorem State.endRx_rxIdx (x : RxStatus) (n : Half) : (s.endRx x n).rxIdx = 0 := rfl
@[simp] theorem State.endRx_rxHcrc (x : RxStatus) (n : Half) : (s.endRx x n).rxHcrc = 0 := rfl
@[simp] theorem State.endRx_rxFcrc (x : RxStatus) (n : Half) : (s.endRx x n).rxFcrc = 0 := rfl
@[simp] theorem State.endRx_rxCap (x : RxStatus) (n : Half) : (s.endRx x n).rxCap = s.rxCap := rfl
@[simp] theorem State.endRx_txSt (x : RxStatus) (n : Half) : (s.endRx x n).txSt = s.txSt := rfl
@[simp] theorem State.endRx_txLen (x : RxStatus) (n : Half) : (s.endRx x n).txLen = s.txLen := rfl
@[simp] theorem State.endRx_txFrame (x : RxStatus) (n : Half) : (s.endRx x n).txFrame = s.txFrame := rfl
@[simp] theorem State.endRx_txFrameMax (x : RxStatus) (n : Half) : (s.endRx x n).txFrameMax = s.txFrameMax := rfl
@[simp] theorem State.endRx_rxBufSize (x : RxStatus) (n : Half) : (s.endRx x n).rxBufSize = s.rxBufSize := rfl
@[simp] theorem State.endRx_rxBase (x : RxStatus) (n : Half) : (s.endRx x n).rxBase = s.rxBase := rfl
@[simp] theorem State.endRx_txBase (x : RxStatus) (n : Half) : (s.endRx x n).txBase = s.txBase := rfl
@[simp] theorem State.endRx_mem (x : RxStatus) (n : Half) : (s.endRx x n).mem = s.mem := rfl
@[simp] theorem State.endRx_source (x : RxStatus) (n : Half) : (s.endRx x n).source = s.source := rfl
@[simp] theorem State.endRx_rxReqs (x : RxStatus) (n : Half) : (s.endRx x n).rxReqs = s.rxReqs := rfl
@[simp] theorem State.endRx_txReqs (x : RxStatus) (n : Half) : (s.endRx x n).txReqs = s.txReqs := rfl
@[simp] theorem State.endRx_rxPending (x : RxStatus) (n : Half) : (s.endRx x n).rxPending = some (rxRespWord x n) := rfl
@[simp] theorem State.endRx_txPending (x : RxStatus) (n : Half) : (s.endRx x n).txPending = s.txPending := rfl
@[simp] theorem State.endRx_rxResps (x : RxStatus) (n : Half) : (s.endRx x n).rxResps =
    s.rxResps ++ [rxRespWord x n] := rfl
@[simp] theorem State.endRx_txResps (x : RxStatus) (n : Half) : (s.endRx x n).txResps = s.txResps := rfl
@[simp] theorem State.endRx_rxBufWrs (x : RxStatus) (n : Half) : (s.endRx x n).rxBufWrs = s.rxBufWrs := rfl
@[simp] theorem State.endRx_sinkWrites (x : RxStatus) (n : Half) : (s.endRx x n).sinkWrites = s.sinkWrites := rfl
@[simp] theorem State.endRx_line (x : RxStatus) (n : Half) : (s.endRx x n).line = s.line := rfl
@[simp] theorem State.endRx_hostReads (x : RxStatus) (n : Half) : (s.endRx x n).hostReads = s.hostReads := rfl
@[simp] theorem State.endRx_script (x : RxStatus) (n : Half) : (s.endRx x n).script = s.script := rfl
@[simp] theorem State.endRx_endless (x : RxStatus) (n : Half) : (s.endRx x n).endless = s.endless := rfl
@[simp] theorem State.endRx_free (x : RxStatus) (n : Half) : (s.endRx x n).free = s.free := rfl
@[simp] theorem State.endRx_raced (x : RxStatus) (n : Half) : (s.endRx x n).raced = s.raced := rfl
@[simp] theorem State.endRx_cutOffWrites (x : RxStatus) (n : Half) : (s.endRx x n).cutOffWrites =
    s.cutOffWrites := rfl

/-! ### countPayload -/

@[simp] theorem State.countPayload_resetDone (b : Byte) : (s.countPayload b).resetDone = s.resetDone := rfl
@[simp] theorem State.countPayload_rxArmed (b : Byte) : (s.countPayload b).rxArmed = s.rxArmed := rfl
@[simp] theorem State.countPayload_rxSt (b : Byte) : (s.countPayload b).rxSt =
    if lastPayloadByte s.rxIdx s.rxLen then .fullCrc else s.rxSt := rfl
@[simp] theorem State.countPayload_rxLen (b : Byte) : (s.countPayload b).rxLen = s.rxLen := rfl
@[simp] theorem State.countPayload_rxIdx (b : Byte) : (s.countPayload b).rxIdx = s.rxIdx + 1 := rfl
@[simp] theorem State.countPayload_rxHcrc (b : Byte) : (s.countPayload b).rxHcrc = s.rxHcrc := rfl
@[simp] theorem State.countPayload_rxFcrc (b : Byte) : (s.countPayload b).rxFcrc = crc8Update s.rxFcrc b := rfl
@[simp] theorem State.countPayload_rxCap (b : Byte) : (s.countPayload b).rxCap = s.rxCap := rfl
@[simp] theorem State.countPayload_txSt (b : Byte) : (s.countPayload b).txSt = s.txSt := rfl
@[simp] theorem State.countPayload_txLen (b : Byte) : (s.countPayload b).txLen = s.txLen := rfl
@[simp] theorem State.countPayload_txFrame (b : Byte) : (s.countPayload b).txFrame = s.txFrame := rfl
@[simp] theorem State.countPayload_txFrameMax (b : Byte) : (s.countPayload b).txFrameMax = s.txFrameMax := rfl
@[simp] theorem State.countPayload_rxBufSize (b : Byte) : (s.countPayload b).rxBufSize = s.rxBufSize := rfl
@[simp] theorem State.countPayload_rxBase (b : Byte) : (s.countPayload b).rxBase = s.rxBase := rfl
@[simp] theorem State.countPayload_txBase (b : Byte) : (s.countPayload b).txBase = s.txBase := rfl
@[simp] theorem State.countPayload_mem (b : Byte) : (s.countPayload b).mem = s.mem := rfl
@[simp] theorem State.countPayload_source (b : Byte) : (s.countPayload b).source = s.source := rfl
@[simp] theorem State.countPayload_rxReqs (b : Byte) : (s.countPayload b).rxReqs = s.rxReqs := rfl
@[simp] theorem State.countPayload_txReqs (b : Byte) : (s.countPayload b).txReqs = s.txReqs := rfl
@[simp] theorem State.countPayload_rxPending (b : Byte) : (s.countPayload b).rxPending = s.rxPending := rfl
@[simp] theorem State.countPayload_txPending (b : Byte) : (s.countPayload b).txPending = s.txPending := rfl
@[simp] theorem State.countPayload_rxResps (b : Byte) : (s.countPayload b).rxResps = s.rxResps := rfl
@[simp] theorem State.countPayload_txResps (b : Byte) : (s.countPayload b).txResps = s.txResps := rfl
@[simp] theorem State.countPayload_rxBufWrs (b : Byte) : (s.countPayload b).rxBufWrs = s.rxBufWrs := rfl
@[simp] theorem State.countPayload_sinkWrites (b : Byte) : (s.countPayload b).sinkWrites = s.sinkWrites := rfl
@[simp] theorem State.countPayload_line (b : Byte) : (s.countPayload b).line = s.line := rfl
@[simp] theorem State.countPayload_hostReads (b : Byte) : (s.countPayload b).hostReads = s.hostReads := rfl
@[simp] theorem State.countPayload_script (b : Byte) : (s.countPayload b).script = s.script := rfl
@[simp] theorem State.countPayload_endless (b : Byte) : (s.countPayload b).endless = s.endless := rfl
@[simp] theorem State.countPayload_free (b : Byte) : (s.countPayload b).free = s.free := rfl
@[simp] theorem State.countPayload_raced (b : Byte) : (s.countPayload b).raced = s.raced := rfl
@[simp] theorem State.countPayload_cutOffWrites (b : Byte) : (s.countPayload b).cutOffWrites = s.cutOffWrites := rfl

/-! ### rxBufWrite -/

@[simp] theorem State.rxBufWrite_resetDone (i : Half) (b : Byte) : (s.rxBufWrite i b).resetDone = s.resetDone := rfl
@[simp] theorem State.rxBufWrite_rxArmed (i : Half) (b : Byte) : (s.rxBufWrite i b).rxArmed = s.rxArmed := rfl
@[simp] theorem State.rxBufWrite_rxSt (i : Half) (b : Byte) : (s.rxBufWrite i b).rxSt = s.rxSt := rfl
@[simp] theorem State.rxBufWrite_rxLen (i : Half) (b : Byte) : (s.rxBufWrite i b).rxLen = s.rxLen := rfl
@[simp] theorem State.rxBufWrite_rxIdx (i : Half) (b : Byte) : (s.rxBufWrite i b).rxIdx = s.rxIdx := rfl
@[simp] theorem State.rxBufWrite_rxHcrc (i : Half) (b : Byte) : (s.rxBufWrite i b).rxHcrc = s.rxHcrc := rfl
@[simp] theorem State.rxBufWrite_rxFcrc (i : Half) (b : Byte) : (s.rxBufWrite i b).rxFcrc = s.rxFcrc := rfl
@[simp] theorem State.rxBufWrite_rxCap (i : Half) (b : Byte) : (s.rxBufWrite i b).rxCap = s.rxCap := rfl
@[simp] theorem State.rxBufWrite_txSt (i : Half) (b : Byte) : (s.rxBufWrite i b).txSt = s.txSt := rfl
@[simp] theorem State.rxBufWrite_txLen (i : Half) (b : Byte) : (s.rxBufWrite i b).txLen = s.txLen := rfl
@[simp] theorem State.rxBufWrite_txFrame (i : Half) (b : Byte) : (s.rxBufWrite i b).txFrame = s.txFrame := rfl
@[simp] theorem State.rxBufWrite_txFrameMax (i : Half) (b : Byte) : (s.rxBufWrite i b).txFrameMax = s.txFrameMax := rfl
@[simp] theorem State.rxBufWrite_rxBufSize (i : Half) (b : Byte) : (s.rxBufWrite i b).rxBufSize = s.rxBufSize := rfl
@[simp] theorem State.rxBufWrite_rxBase (i : Half) (b : Byte) : (s.rxBufWrite i b).rxBase = s.rxBase := rfl
@[simp] theorem State.rxBufWrite_txBase (i : Half) (b : Byte) : (s.rxBufWrite i b).txBase = s.txBase := rfl
@[simp] theorem State.rxBufWrite_mem (i : Half) (b : Byte) : (s.rxBufWrite i b).mem =
    s.mem.put (s.rxAddr i) (s.storedByte i b) := rfl
@[simp] theorem State.rxBufWrite_source (i : Half) (b : Byte) : (s.rxBufWrite i b).source = s.source := rfl
@[simp] theorem State.rxBufWrite_rxReqs (i : Half) (b : Byte) : (s.rxBufWrite i b).rxReqs = s.rxReqs := rfl
@[simp] theorem State.rxBufWrite_txReqs (i : Half) (b : Byte) : (s.rxBufWrite i b).txReqs = s.txReqs := rfl
@[simp] theorem State.rxBufWrite_rxPending (i : Half) (b : Byte) : (s.rxBufWrite i b).rxPending = s.rxPending := rfl
@[simp] theorem State.rxBufWrite_txPending (i : Half) (b : Byte) : (s.rxBufWrite i b).txPending = s.txPending := rfl
@[simp] theorem State.rxBufWrite_rxResps (i : Half) (b : Byte) : (s.rxBufWrite i b).rxResps = s.rxResps := rfl
@[simp] theorem State.rxBufWrite_txResps (i : Half) (b : Byte) : (s.rxBufWrite i b).txResps = s.txResps := rfl
@[simp] theorem State.rxBufWrite_rxBufWrs (i : Half) (b : Byte) : (s.rxBufWrite i b).rxBufWrs =
    s.rxBufWrs ++ [(i, b)] := rfl
@[simp] theorem State.rxBufWrite_sinkWrites (i : Half) (b : Byte) : (s.rxBufWrite i b).sinkWrites = s.sinkWrites := rfl
@[simp] theorem State.rxBufWrite_line (i : Half) (b : Byte) : (s.rxBufWrite i b).line = s.line := rfl
@[simp] theorem State.rxBufWrite_hostReads (i : Half) (b : Byte) : (s.rxBufWrite i b).hostReads = s.hostReads := rfl
@[simp] theorem State.rxBufWrite_script (i : Half) (b : Byte) : (s.rxBufWrite i b).script = s.script := rfl
@[simp] theorem State.rxBufWrite_endless (i : Half) (b : Byte) : (s.rxBufWrite i b).endless = s.endless := rfl
@[simp] theorem State.rxBufWrite_free (i : Half) (b : Byte) : (s.rxBufWrite i b).free = s.free := rfl
@[simp] theorem State.rxBufWrite_raced (i : Half) (b : Byte) : (s.rxBufWrite i b).raced = s.raced := rfl
@[simp] theorem State.rxBufWrite_cutOffWrites (i : Half) (b : Byte) : (s.rxBufWrite i b).cutOffWrites =
    s.cutOffWrites := rfl

/-! ### respondTx -/

@[simp] theorem State.respondTx_resetDone (x : TxStatus) : (s.respondTx x).resetDone = s.resetDone := rfl
@[simp] theorem State.respondTx_rxArmed (x : TxStatus) : (s.respondTx x).rxArmed = s.rxArmed := rfl
@[simp] theorem State.respondTx_rxSt (x : TxStatus) : (s.respondTx x).rxSt = s.rxSt := rfl
@[simp] theorem State.respondTx_rxLen (x : TxStatus) : (s.respondTx x).rxLen = s.rxLen := rfl
@[simp] theorem State.respondTx_rxIdx (x : TxStatus) : (s.respondTx x).rxIdx = s.rxIdx := rfl
@[simp] theorem State.respondTx_rxHcrc (x : TxStatus) : (s.respondTx x).rxHcrc = s.rxHcrc := rfl
@[simp] theorem State.respondTx_rxFcrc (x : TxStatus) : (s.respondTx x).rxFcrc = s.rxFcrc := rfl
@[simp] theorem State.respondTx_rxCap (x : TxStatus) : (s.respondTx x).rxCap = s.rxCap := rfl
@[simp] theorem State.respondTx_txSt (x : TxStatus) : (s.respondTx x).txSt = s.txSt := rfl
@[simp] theorem State.respondTx_txLen (x : TxStatus) : (s.respondTx x).txLen = s.txLen := rfl
@[simp] theorem State.respondTx_txFrame (x : TxStatus) : (s.respondTx x).txFrame = s.txFrame := rfl
@[simp] theorem State.respondTx_txFrameMax (x : TxStatus) : (s.respondTx x).txFrameMax = s.txFrameMax := rfl
@[simp] theorem State.respondTx_rxBufSize (x : TxStatus) : (s.respondTx x).rxBufSize = s.rxBufSize := rfl
@[simp] theorem State.respondTx_rxBase (x : TxStatus) : (s.respondTx x).rxBase = s.rxBase := rfl
@[simp] theorem State.respondTx_txBase (x : TxStatus) : (s.respondTx x).txBase = s.txBase := rfl
@[simp] theorem State.respondTx_mem (x : TxStatus) : (s.respondTx x).mem = s.mem := rfl
@[simp] theorem State.respondTx_source (x : TxStatus) : (s.respondTx x).source = s.source := rfl
@[simp] theorem State.respondTx_rxReqs (x : TxStatus) : (s.respondTx x).rxReqs = s.rxReqs := rfl
@[simp] theorem State.respondTx_txReqs (x : TxStatus) : (s.respondTx x).txReqs = s.txReqs := rfl
@[simp] theorem State.respondTx_rxPending (x : TxStatus) : (s.respondTx x).rxPending = s.rxPending := rfl
@[simp] theorem State.respondTx_txPending (x : TxStatus) : (s.respondTx x).txPending = some (txStatusCode x) := rfl
@[simp] theorem State.respondTx_rxResps (x : TxStatus) : (s.respondTx x).rxResps = s.rxResps := rfl
@[simp] theorem State.respondTx_txResps (x : TxStatus) : (s.respondTx x).txResps = s.txResps ++ [txStatusCode x] := rfl
@[simp] theorem State.respondTx_rxBufWrs (x : TxStatus) : (s.respondTx x).rxBufWrs = s.rxBufWrs := rfl
@[simp] theorem State.respondTx_sinkWrites (x : TxStatus) : (s.respondTx x).sinkWrites = s.sinkWrites := rfl
@[simp] theorem State.respondTx_line (x : TxStatus) : (s.respondTx x).line = s.line := rfl
@[simp] theorem State.respondTx_hostReads (x : TxStatus) : (s.respondTx x).hostReads = s.hostReads := rfl
@[simp] theorem State.respondTx_script (x : TxStatus) : (s.respondTx x).script = s.script := rfl
@[simp] theorem State.respondTx_endless (x : TxStatus) : (s.respondTx x).endless = s.endless := rfl
@[simp] theorem State.respondTx_free (x : TxStatus) : (s.respondTx x).free = s.free := rfl
@[simp] theorem State.respondTx_raced (x : TxStatus) : (s.respondTx x).raced = s.raced := rfl
@[simp] theorem State.respondTx_cutOffWrites (x : TxStatus) : (s.respondTx x).cutOffWrites = s.cutOffWrites := rfl

/-! ### endTx -/

@[simp] theorem State.endTx_resetDone (x : TxStatus) (n : Nat) : (s.endTx x n).resetDone = s.resetDone := rfl
@[simp] theorem State.endTx_rxArmed (x : TxStatus) (n : Nat) : (s.endTx x n).rxArmed = s.rxArmed := rfl
@[simp] theorem State.endTx_rxSt (x : TxStatus) (n : Nat) : (s.endTx x n).rxSt = s.rxSt := rfl
@[simp] theorem State.endTx_rxLen (x : TxStatus) (n : Nat) : (s.endTx x n).rxLen = s.rxLen := rfl
@[simp] theorem State.endTx_rxIdx (x : TxStatus) (n : Nat) : (s.endTx x n).rxIdx = s.rxIdx := rfl
@[simp] theorem State.endTx_rxHcrc (x : TxStatus) (n : Nat) : (s.endTx x n).rxHcrc = s.rxHcrc := rfl
@[simp] theorem State.endTx_rxFcrc (x : TxStatus) (n : Nat) : (s.endTx x n).rxFcrc = s.rxFcrc := rfl
@[simp] theorem State.endTx_rxCap (x : TxStatus) (n : Nat) : (s.endTx x n).rxCap = s.rxCap := rfl
@[simp] theorem State.endTx_txSt (x : TxStatus) (n : Nat) : (s.endTx x n).txSt = .idle := rfl
@[simp] theorem State.endTx_txLen (x : TxStatus) (n : Nat) : (s.endTx x n).txLen = 0 := rfl
@[simp] theorem State.endTx_txFrame (x : TxStatus) (n : Nat) : (s.endTx x n).txFrame = [] := rfl
@[simp] theorem State.endTx_txFrameMax (x : TxStatus) (n : Nat) : (s.endTx x n).txFrameMax = s.txFrameMax := rfl
@[simp] theorem State.endTx_rxBufSize (x : TxStatus) (n : Nat) : (s.endTx x n).rxBufSize = s.rxBufSize := rfl
@[simp] theorem State.endTx_rxBase (x : TxStatus) (n : Nat) : (s.endTx x n).rxBase = s.rxBase := rfl
@[simp] theorem State.endTx_txBase (x : TxStatus) (n : Nat) : (s.endTx x n).txBase = s.txBase := rfl
@[simp] theorem State.endTx_mem (x : TxStatus) (n : Nat) : (s.endTx x n).mem = s.mem := rfl
@[simp] theorem State.endTx_source (x : TxStatus) (n : Nat) : (s.endTx x n).source = s.source := rfl
@[simp] theorem State.endTx_rxReqs (x : TxStatus) (n : Nat) : (s.endTx x n).rxReqs = s.rxReqs := rfl
@[simp] theorem State.endTx_txReqs (x : TxStatus) (n : Nat) : (s.endTx x n).txReqs = s.txReqs := rfl
@[simp] theorem State.endTx_rxPending (x : TxStatus) (n : Nat) : (s.endTx x n).rxPending = s.rxPending := rfl
@[simp] theorem State.endTx_txPending (x : TxStatus) (n : Nat) : (s.endTx x n).txPending = some (txStatusCode x) := rfl
@[simp] theorem State.endTx_rxResps (x : TxStatus) (n : Nat) : (s.endTx x n).rxResps = s.rxResps := rfl
@[simp] theorem State.endTx_txResps (x : TxStatus) (n : Nat) : (s.endTx x n).txResps =
    s.txResps ++ [txStatusCode x] := rfl
@[simp] theorem State.endTx_rxBufWrs (x : TxStatus) (n : Nat) : (s.endTx x n).rxBufWrs = s.rxBufWrs := rfl
@[simp] theorem State.endTx_sinkWrites (x : TxStatus) (n : Nat) : (s.endTx x n).sinkWrites = s.sinkWrites := rfl
@[simp] theorem State.endTx_line (x : TxStatus) (n : Nat) : (s.endTx x n).line = s.line ++ s.txFrame.take n := rfl
@[simp] theorem State.endTx_hostReads (x : TxStatus) (n : Nat) : (s.endTx x n).hostReads = s.hostReads := rfl
@[simp] theorem State.endTx_script (x : TxStatus) (n : Nat) : (s.endTx x n).script = s.script := rfl
@[simp] theorem State.endTx_endless (x : TxStatus) (n : Nat) : (s.endTx x n).endless = s.endless := rfl
@[simp] theorem State.endTx_free (x : TxStatus) (n : Nat) : (s.endTx x n).free = s.free := rfl
@[simp] theorem State.endTx_raced (x : TxStatus) (n : Nat) : (s.endTx x n).raced = s.raced := rfl
@[simp] theorem State.endTx_cutOffWrites (x : TxStatus) (n : Nat) : (s.endTx x n).cutOffWrites = s.cutOffWrites := rfl

/-! ### applyReset -/

@[simp] theorem State.applyReset_resetDone : s.applyReset.resetDone = true := rfl
@[simp] theorem State.applyReset_rxArmed : s.applyReset.rxArmed = false := rfl
@[simp] theorem State.applyReset_rxSt : s.applyReset.rxSt = .waitStart := rfl
@[simp] theorem State.applyReset_rxLen : s.applyReset.rxLen = 0 := rfl
@[simp] theorem State.applyReset_rxIdx : s.applyReset.rxIdx = 0 := rfl
@[simp] theorem State.applyReset_rxHcrc : s.applyReset.rxHcrc = 0 := rfl
@[simp] theorem State.applyReset_rxFcrc : s.applyReset.rxFcrc = 0 := rfl
@[simp] theorem State.applyReset_rxCap : s.applyReset.rxCap = 0 := rfl
@[simp] theorem State.applyReset_txSt : s.applyReset.txSt = .idle := rfl
@[simp] theorem State.applyReset_txLen : s.applyReset.txLen = 0 := rfl
@[simp] theorem State.applyReset_txFrame : s.applyReset.txFrame = [] := rfl
@[simp] theorem State.applyReset_txFrameMax : s.applyReset.txFrameMax = s.txFrameMax := rfl
@[simp] theorem State.applyReset_rxBufSize : s.applyReset.rxBufSize = s.rxBufSize := rfl
@[simp] theorem State.applyReset_rxBase : s.applyReset.rxBase = s.rxBase := rfl
@[simp] theorem State.applyReset_txBase : s.applyReset.txBase = s.txBase := rfl
@[simp] theorem State.applyReset_mem : s.applyReset.mem = s.mem := rfl
@[simp] theorem State.applyReset_source : s.applyReset.source = s.source := rfl
@[simp] theorem State.applyReset_rxReqs : s.applyReset.rxReqs = [] := rfl
@[simp] theorem State.applyReset_txReqs : s.applyReset.txReqs = [] := rfl
@[simp] theorem State.applyReset_rxPending : s.applyReset.rxPending = none := rfl
@[simp] theorem State.applyReset_txPending : s.applyReset.txPending = none := rfl
@[simp] theorem State.applyReset_rxResps : s.applyReset.rxResps = s.rxResps := rfl
@[simp] theorem State.applyReset_txResps : s.applyReset.txResps = s.txResps := rfl
@[simp] theorem State.applyReset_rxBufWrs : s.applyReset.rxBufWrs = s.rxBufWrs := rfl
@[simp] theorem State.applyReset_sinkWrites : s.applyReset.sinkWrites = s.sinkWrites := rfl
@[simp] theorem State.applyReset_line : s.applyReset.line = s.line ++ s.cutOffBytes := rfl
@[simp] theorem State.applyReset_hostReads : s.applyReset.hostReads = s.hostReads := rfl
@[simp] theorem State.applyReset_script : s.applyReset.script = s.script := rfl
@[simp] theorem State.applyReset_endless : s.applyReset.endless = s.endless := rfl
@[simp] theorem State.applyReset_free : s.applyReset.free = s.free + 1 := rfl
@[simp] theorem State.applyReset_raced : s.applyReset.raced = s.raced := rfl
@[simp] theorem State.applyReset_cutOffWrites : s.applyReset.cutOffWrites =
    s.cutOffWrites + s.cutsOff.toNat := rfl

/-! ### The decoder's view -/

@[simp] theorem State.ctx_rxArmed : s.ctx.rxArmed = s.rxArmed := rfl
@[simp] theorem State.ctx_rxSt : s.ctx.rxSt = s.rxSt := rfl
@[simp] theorem State.ctx_rxLen : s.ctx.rxLen = s.rxLen := rfl
@[simp] theorem State.ctx_rxIdx : s.ctx.rxIdx = s.rxIdx := rfl
@[simp] theorem State.ctx_rxHcrc : s.ctx.rxHcrc = s.rxHcrc := rfl
@[simp] theorem State.ctx_rxFcrc : s.ctx.rxFcrc = s.rxFcrc := rfl
@[simp] theorem State.ctx_rxCap : s.ctx.rxCap = s.rxCap := rfl
@[simp] theorem State.ctx_txSt : s.ctx.txSt = s.txSt := rfl
@[simp] theorem State.ctx_txLen : s.ctx.txLen = s.txLen := rfl
@[simp] theorem State.ctx_txFrameMax : s.ctx.txFrameMax = s.txFrameMax := rfl

/-! ### The state after reset (10_state.md R38) -/

@[simp] theorem State.reset_resetDone : State.reset.resetDone = true := rfl
@[simp] theorem State.reset_rxArmed : State.reset.rxArmed = false := rfl
@[simp] theorem State.reset_rxSt : State.reset.rxSt = .waitStart := rfl
@[simp] theorem State.reset_rxLen : State.reset.rxLen = 0 := rfl
@[simp] theorem State.reset_rxIdx : State.reset.rxIdx = 0 := rfl
@[simp] theorem State.reset_rxHcrc : State.reset.rxHcrc = 0 := rfl
@[simp] theorem State.reset_rxFcrc : State.reset.rxFcrc = 0 := rfl
@[simp] theorem State.reset_rxCap : State.reset.rxCap = 0 := rfl
@[simp] theorem State.reset_txSt : State.reset.txSt = .idle := rfl
@[simp] theorem State.reset_txLen : State.reset.txLen = 0 := rfl
@[simp] theorem State.reset_txFrame : State.reset.txFrame = [] := rfl
@[simp] theorem State.reset_mem : State.reset.mem = [] := rfl
@[simp] theorem State.reset_raced : State.reset.raced = [] := rfl
@[simp] theorem State.reset_cutOffWrites : State.reset.cutOffWrites = 0 := rfl
@[simp] theorem State.reset_script : State.reset.script = [] := rfl
@[simp] theorem State.reset_source : State.reset.source = [] := rfl
@[simp] theorem State.reset_rxReqs : State.reset.rxReqs = [] := rfl
@[simp] theorem State.reset_txReqs : State.reset.txReqs = [] := rfl
@[simp] theorem State.reset_rxPending : State.reset.rxPending = none := rfl
@[simp] theorem State.reset_txPending : State.reset.txPending = none := rfl
@[simp] theorem State.reset_endless : State.reset.endless = .stops := rfl
@[simp] theorem State.reset_rxResps : State.reset.rxResps = [] := rfl
@[simp] theorem State.reset_txResps : State.reset.txResps = [] := rfl

end Sys2Proof.Machine
end

