-- ==== Sys2Proof/Laws/Ops.lean ====
section
/-! SUPPORT. What each shared operation can answer, said once. -/

namespace Sys2Proof.Machine

/-- `perform` answers a next state only where the operation is selected. -/
theorem perform_eq_next {i : Instr} {s t : State} {o : Result} :
    perform i s o = .next t ↔ selects s.ctx i = true ∧ o = .next t := by
  unfold perform
  split <;> simp_all

theorem perform_of_selects {i : Instr} {s : State} {o : Result} (h : selects s.ctx i = true) :
    perform i s o = o := by
  simp [perform, h]

/-- `withBuffer` answers a next state only where the host's buffer is large enough. -/
theorem withBuffer_eq_next {c : Half} {s t : State} {o : Result} :
    withBuffer c s o = .next t ↔ c.toNat ≤ s.rxBufSize ∧ o = .next t := by
  unfold withBuffer
  split <;> simp_all

theorem withBuffer_of_le {c : Half} {s : State} {o : Result} (h : c.toNat ≤ s.rxBufSize) :
    withBuffer c s o = o := by
  simp [withBuffer, h]

/-- Whatever `exec` runs was selected (30_encoding.md R89, R90). -/
theorem selects_of_exec_eq_next {i : Instr} {s t : State} (h : exec i s = .next t) :
    selects s.ctx i = true := by
  cases i
  case reset => rfl
  all_goals exact (perform_eq_next.mp h).1

/-- A host action under the payload duty goes through unchanged, or is refused. -/
theorem underDuty_eq_next {s s' t : State} : underDuty s s' = .next t ↔ dutyKept s s' = true ∧ s' = t := by
  unfold underDuty
  split <;> simp_all

/-- Where the host has not written the byte in this request, a store leaves the byte stored. -/
theorem State.storedByte_of_not_raced {s : State} {i : Half} (b : Byte) (h : s.rxAddr i ∉ s.raced) :
    s.storedByte i b = b := by
  simp [State.storedByte, h]

/-- An offered word runs as what it decodes to, or waits. -/
theorem offer_eq_next {w : PortWord} {s t : State} (h : offer w s = .next t) :
    (∃ i, decode s.ctx w = .ok i ∧ exec i s = .next t) ∨
      ((∃ r, decode s.ctx w = .error r) ∧ t = s.wait w) := by
  unfold offer at h
  split at h
  · exact .inl ⟨_, ‹_›, h⟩
  · exact .inr ⟨⟨_, ‹_›⟩, by simpa using h.symm⟩

/-- The payload of a request has the length asked for. -/
@[simp] theorem State.readPayload_length (s : State) (len : Half) : (s.readPayload len).length = len.toNat := by
  simp [State.readPayload]

/-- What a frame cut off by reset leaves on the line is a prefix of it. -/
theorem State.cutOffBytes_prefix (s : State) : s.cutOffBytes <+: s.txFrame := by
  unfold State.cutOffBytes
  split
  · exact List.take_prefix _ _
  · exact List.nil_prefix

end Sys2Proof.Machine
end

