-- ==== Sys2Proof/Laws/Host.lean ====
section
/-! SUPPORT. The host's duty on the payload (70_reset_and_hazards.md R239), and what a host action can change. -/

namespace Sys2Proof.Machine

/-- `sameAt` says that both memories read the same there. -/
theorem Memory.sameAt_iff (m m' : Memory) (a : Nat) : m.sameAt m' a = true ↔ m.read a = m'.read a := by
  simp only [Memory.sameAt, Bool.or_eq_true, beq_iff_eq]
  exact ⟨fun h => h.elim (fun h => by simp [Memory.read, h]) id, .inr⟩

/-- A byte is among the first `dutyLen` ones exactly where the host must leave it alone. -/
theorem State.lt_dutyLen_iff (s : State) (k : Nat) : k < s.dutyLen ↔ s.onDuty k := by
  have held (ws : List TxReqWord) (n : Nat) :
      k < ws.foldr (fun w n => if txReqPresent w then max (txReqLen w).toNat n else n) n ↔
        k < n ∨ ∃ w ∈ ws, txReqPresent w = true ∧ k < (txReqLen w).toNat := by
    induction ws with
    | nil => simp
    | cons w ws ih =>
      simp only [List.foldr_cons, List.mem_cons, exists_eq_or_imp]
      split
      · rename_i hp
        rw [lt_max_iff, ih]
        tauto
      · rename_i hp
        rw [ih]
        tauto
  rw [State.dutyLen, held, State.onDuty]
  split <;> simp_all

/-- The duty is kept where every byte under it reads as before. -/
theorem dutyKept_iff (s t : State) :
    dutyKept s t = true ↔ ∀ k, s.onDuty k → s.mem.read (s.txBase + k) = t.mem.read (s.txBase + k) := by
  simp only [dutyKept, List.all_eq_true, List.mem_range, Memory.sameAt_iff, State.lt_dutyLen_iff]

/-- A host action changes nothing but memory, its record of reads, what is pending for it, the addresses that race and the
draws of free values, and it keeps the form of memory. -/
theorem runEvent_host {e : Event} {s t : State} (he : isHostAction e = true) (h : runEvent e s = .next t) :
    ∃ m p q r n c, t = { s with mem := m, rxPending := p, txPending := q, hostReads := r, free := n, raced := c } ∧
      (s.mem.wf → m.wf) ∧ (p = s.rxPending ∨ e = .takeRxResp ∧ p = none) ∧
      (q = s.txPending ∨ e = .takeTxResp ∧ q = none) := by
  cases e with
  | port w => simp [isHostAction] at he
  | sourceTurn => simp [isHostAction] at he
  | staleSinkResp w => simp [isHostAction] at he
  | txMem bs =>
    simp only [runEvent, hostTxMem, underDuty_eq_next] at h
    obtain ⟨-, rfl⟩ := h
    obtain ⟨m, n, c, hm, hw, -⟩ := State.hostPutAll_spec (bs.take 65536) s.txBase s
    exact ⟨m, _, _, _, n, c, hm, hw, .inl rfl, .inl rfl⟩
  | hostWrite i b =>
    simp only [runEvent, hostWrite] at h
    split at h
    · rw [underDuty_eq_next] at h
      obtain ⟨-, rfl⟩ := h
      obtain ⟨v, n, c, hv, -⟩ := State.hostPut_spec s (s.rxAddr i) b
      exact ⟨_, _, _, _, n, c, hv, fun hw => Memory.wf_put hw _ _, .inl rfl, .inl rfl⟩
    · simp at h
  | hostRead i =>
    simp only [runEvent, hostRead] at h
    split at h
    · split at h <;> simp only [Host.Outcome.next.injEq] at h <;> subst h <;>
        exact ⟨_, _, _, _, _, _, rfl, id, .inl rfl, .inl rfl⟩
    · simp at h
  | takeRxResp =>
    simp only [runEvent, Host.Outcome.next.injEq] at h
    subst h
    exact ⟨_, _, _, _, _, _, rfl, id, .inr ⟨rfl, rfl⟩, .inl rfl⟩
  | takeTxResp =>
    simp only [runEvent, Host.Outcome.next.injEq] at h
    subst h
    exact ⟨_, _, _, _, _, _, rfl, id, .inl rfl, .inr ⟨rfl, rfl⟩⟩

end Sys2Proof.Machine
end

