-- ==== Sys2Proof/Laws/PerInstr.lean ====
section
/-! SUPPORT. Facts about each operation as syntax, one lemma for each constructor. `HomeDecodes` gives each
operation the plainest context that selects it, and says that its word decodes to it there. -/

namespace Sys2Proof.Laws

/-- The registers after reset, as the decoder sees them. -/
def HomeDecodes.base : Ctx := ⟨false, .waitStart, 0, 0, 0, 0, 0, .idle, 0, Config.txFrameMaxDefault⟩

/-- A context that selects the operation. -/
def HomeDecodes.home : Instr → Ctx
  | .rxIoerr _ => { HomeDecodes.base with rxArmed := true }
  | .rxWsStart => { HomeDecodes.base with rxArmed := true }
  | .rxWsSkip _ => { HomeDecodes.base with rxArmed := true }
  | .rxLenLow _ => { HomeDecodes.base with rxArmed := true, rxSt := .lenLow }
  | .rxLenHigh _ => { HomeDecodes.base with rxArmed := true, rxSt := .lenHigh }
  | .rxHdrOk b => { HomeDecodes.base with rxArmed := true, rxSt := .hdrCrc, rxHcrc := b }
  | .rxHdrBad b => { HomeDecodes.base with rxArmed := true, rxSt := .hdrCrc, rxHcrc := ~~~b }
  | .rxDsOk => { HomeDecodes.base with rxArmed := true, rxSt := .dataStart, rxLen := 1 }
  | .rxDsOk0 => { HomeDecodes.base with rxArmed := true, rxSt := .dataStart }
  | .rxDsBad _ => { HomeDecodes.base with rxArmed := true, rxSt := .dataStart }
  | .rxPayStore _ => { HomeDecodes.base with rxArmed := true, rxSt := .payload, rxCap := 1 }
  | .rxPayDrop _ => { HomeDecodes.base with rxArmed := true, rxSt := .payload }
  | .rxFcBadcrc b => { HomeDecodes.base with rxArmed := true, rxSt := .fullCrc, rxFcrc := ~~~b }
  | .rxFcBadlen b => { HomeDecodes.base with rxArmed := true, rxSt := .fullCrc, rxFcrc := b, rxLen := 1 }
  | .rxFcOk b => { HomeDecodes.base with rxArmed := true, rxSt := .fullCrc, rxFcrc := b }
  | .rxStopOk => { HomeDecodes.base with rxArmed := true, rxSt := .stop }
  | .rxStopBad _ => { HomeDecodes.base with rxArmed := true, rxSt := .stop }
  | .rxReq _ => HomeDecodes.base
  | .txReqNopay _ => HomeDecodes.base
  | .txReqToobig _ _ => { HomeDecodes.base with txFrameMax := 0 }
  | .txReqSend _ _ => HomeDecodes.base
  | .txSinkOk n => { HomeDecodes.base with txSt := .waitSink, txLen := tableTxLen (sinkWord false n) }
  | .txSinkShort n => { HomeDecodes.base with txSt := .waitSink, txLen := if n = 7 then 1 else 0 }
  | .txSinkErr _ => { HomeDecodes.base with txSt := .waitSink }
  | .txSinkStray _ _ => HomeDecodes.base
  | .reset => HomeDecodes.base

/-- A well-formed operation's word decodes to it where its registers are as `home` says. -/
def HomeDecodes.Statement (i : Instr) : Prop :=
  i.wellFormed = true → decode (HomeDecodes.home i) (encode i) = .ok i

@[simp] theorem srcError_srcWord (e : Bool) (b : Byte) : srcError (srcWord e b) = e := by
  cases e <;> simp [srcError, srcWord]

@[simp] theorem srcByte_srcWord (e : Bool) (b : Byte) : srcByte (srcWord e b) = b := by
  unfold srcByte srcWord
  ext i hi
  simp [hi]
  omega

@[simp] theorem txReqPresent_txReqWord (p : Bool) (len : Half) : txReqPresent (txReqWord p len) = p := by
  cases p <;> simp [txReqPresent, txReqWord]

@[simp] theorem txReqLen_txReqWord (p : Bool) (len : Half) : txReqLen (txReqWord p len) = len := by
  unfold txReqLen txReqWord
  ext i hi
  simp [hi]
  omega

@[simp] theorem sinkError_sinkWord (e : Bool) (n : BitVec 17) : sinkError (sinkWord e n) = e := by
  cases e <;> simp [sinkError, sinkWord]

@[simp] theorem sinkCount_sinkWord (e : Bool) (n : BitVec 17) : sinkCount (sinkWord e n) = n := by
  unfold sinkCount sinkWord
  ext i hi
  simp [hi]
  omega

theorem HomeDecodes.rxIoerr (b : Byte) : HomeDecodes.Statement (.rxIoerr b) := by
  intro h
  simp_all [Instr.wellFormed, HomeDecodes.home, HomeDecodes.base, encode, decode, decodeSrc]

theorem HomeDecodes.rxWsStart : HomeDecodes.Statement .rxWsStart := by
  intro h
  simp_all [Instr.wellFormed, HomeDecodes.home, HomeDecodes.base, encode, decode, decodeSrc, isStartMarker]

theorem HomeDecodes.rxWsSkip (b : Byte) : HomeDecodes.Statement (.rxWsSkip b) := by
  intro h
  simp_all [Instr.wellFormed, HomeDecodes.home, HomeDecodes.base, encode, decode, decodeSrc, isStartMarker]

theorem HomeDecodes.rxLenLow (b : Byte) : HomeDecodes.Statement (.rxLenLow b) := by
  intro h
  simp_all [Instr.wellFormed, HomeDecodes.home, HomeDecodes.base, encode, decode, decodeSrc]

theorem HomeDecodes.rxLenHigh (b : Byte) : HomeDecodes.Statement (.rxLenHigh b) := by
  intro h
  simp_all [Instr.wellFormed, HomeDecodes.home, HomeDecodes.base, encode, decode, decodeSrc]

theorem HomeDecodes.rxHdrOk (b : Byte) : HomeDecodes.Statement (.rxHdrOk b) := by
  intro h
  simp_all [Instr.wellFormed, HomeDecodes.home, HomeDecodes.base, encode, decode, decodeSrc, crcOk]

theorem HomeDecodes.rxHdrBad (b : Byte) : HomeDecodes.Statement (.rxHdrBad b) := by
  intro h
  simp_all [Instr.wellFormed, HomeDecodes.home, HomeDecodes.base, encode, decode, decodeSrc, crcOk]

theorem HomeDecodes.rxDsOk : HomeDecodes.Statement .rxDsOk := by
  intro h
  simp_all [Instr.wellFormed, HomeDecodes.home, HomeDecodes.base, encode, decode, decodeSrc, isDataStartMarker]

theorem HomeDecodes.rxDsOk0 : HomeDecodes.Statement .rxDsOk0 := by
  intro h
  simp_all [Instr.wellFormed, HomeDecodes.home, HomeDecodes.base, encode, decode, decodeSrc, isDataStartMarker]

theorem HomeDecodes.rxDsBad (b : Byte) : HomeDecodes.Statement (.rxDsBad b) := by
  intro h
  simp_all [Instr.wellFormed, HomeDecodes.home, HomeDecodes.base, encode, decode, decodeSrc, isDataStartMarker]

theorem HomeDecodes.rxPayStore (b : Byte) : HomeDecodes.Statement (.rxPayStore b) := by
  intro h
  simp_all [Instr.wellFormed, HomeDecodes.home, HomeDecodes.base, encode, decode, decodeSrc, idxWithin]

theorem HomeDecodes.rxPayDrop (b : Byte) : HomeDecodes.Statement (.rxPayDrop b) := by
  intro h
  simp_all [Instr.wellFormed, HomeDecodes.home, HomeDecodes.base, encode, decode, decodeSrc, idxWithin]

theorem HomeDecodes.rxFcBadcrc (b : Byte) : HomeDecodes.Statement (.rxFcBadcrc b) := by
  intro h
  simp_all [Instr.wellFormed, HomeDecodes.home, HomeDecodes.base, encode, decode, decodeSrc, crcOk]

theorem HomeDecodes.rxFcBadlen (b : Byte) : HomeDecodes.Statement (.rxFcBadlen b) := by
  intro h
  simp_all [Instr.wellFormed, HomeDecodes.home, HomeDecodes.base, encode, decode, decodeSrc, crcOk, lenOk]

theorem HomeDecodes.rxFcOk (b : Byte) : HomeDecodes.Statement (.rxFcOk b) := by
  intro h
  simp_all [Instr.wellFormed, HomeDecodes.home, HomeDecodes.base, encode, decode, decodeSrc, crcOk, lenOk]

theorem HomeDecodes.rxStopOk : HomeDecodes.Statement .rxStopOk := by
  intro h
  simp_all [Instr.wellFormed, HomeDecodes.home, HomeDecodes.base, encode, decode, decodeSrc, isStopMarker]

theorem HomeDecodes.rxStopBad (b : Byte) : HomeDecodes.Statement (.rxStopBad b) := by
  intro h
  simp_all [Instr.wellFormed, HomeDecodes.home, HomeDecodes.base, encode, decode, decodeSrc, isStopMarker]

theorem HomeDecodes.rxReq (c : Half) : HomeDecodes.Statement (.rxReq c) := by
  intro h
  simp_all [Instr.wellFormed, HomeDecodes.home, HomeDecodes.base, encode, decode]

theorem HomeDecodes.txReqNopay (len : Half) : HomeDecodes.Statement (.txReqNopay len) := by
  intro h
  simp_all [Instr.wellFormed, HomeDecodes.home, HomeDecodes.base, encode, decode, decodeTxReq, payloadMissing]

theorem HomeDecodes.txReqToobig (p : Bool) (len : Half) : HomeDecodes.Statement (.txReqToobig p len) := by
  intro h
  cases p <;>
    simp_all [Instr.wellFormed, HomeDecodes.home, encode, decode, decodeTxReq, HomeDecodes.base, payloadMissing,
      frameTooBig, frameSize, Config.frameOverhead]

theorem HomeDecodes.txReqSend (p : Bool) (len : Half) : HomeDecodes.Statement (.txReqSend p len) := by
  intro h
  have := len.isLt
  cases p <;>
    simp_all [Instr.wellFormed, HomeDecodes.home, encode, decode, decodeTxReq, HomeDecodes.base, payloadMissing,
      frameTooBig, frameSize, Config.frameOverhead, Config.txFrameMaxDefault]
  omega

theorem HomeDecodes.txSinkOk (n : BitVec 17) : HomeDecodes.Statement (.txSinkOk n) := by
  intro h
  simp_all [Instr.wellFormed, HomeDecodes.home, HomeDecodes.base, encode, decode, decodeSinkResp, countMatches,
    frameSize, tableTxLen, Config.frameOverhead]
  omega

theorem HomeDecodes.txSinkShort (n : BitVec 17) : HomeDecodes.Statement (.txSinkShort n) := by
  intro h
  by_cases hn : n = 7
  · subst hn
    rfl
  · have hn' : ¬n = 7#17 := hn
    have : n.toNat ≠ 7 := fun h => hn (BitVec.eq_of_toNat_eq h)
    simp [HomeDecodes.home, HomeDecodes.base, encode, decode, decodeSinkResp, countMatches, frameSize,
      Config.frameOverhead, hn', this]

theorem HomeDecodes.txSinkErr (x : BitVec 17) : HomeDecodes.Statement (.txSinkErr x) := by
  intro h
  simp_all [Instr.wellFormed, HomeDecodes.home, HomeDecodes.base, encode, decode, decodeSinkResp]

theorem HomeDecodes.txSinkStray (e : Bool) (n : BitVec 17) : HomeDecodes.Statement (.txSinkStray e n) := by
  intro h
  simp_all [Instr.wellFormed, HomeDecodes.home, HomeDecodes.base, encode, decode, decodeSinkResp]

theorem HomeDecodes.reset : HomeDecodes.Statement .reset := fun _ => rfl

end Sys2Proof.Laws
end

