-- ==== Sys2Proof/Laws/Step.lean ====
section
/-! SUPPORT. The inversion of one step: what a step is about, and so every way it can go. -/

namespace Sys2Proof.Machine

/-- Where no held request can be taken there is none to take. -/
theorem heldRequest_eq_none {s : State} : heldRequest s = none ↔ s.noHeldReady := by
  unfold heldRequest State.noHeldReady
  cases hA : s.rxArmed <;> cases hQ : s.rxReqs <;> cases hT : s.txSt <;> cases hR : s.txReqs <;> simp

/-- A word that the armed engine can take from the source, and the state without it. -/
theorem waitingWord_eq_some {s t : State} {w : PortWord} :
    waitingWord s = some (w, t) ↔
      ∃ x xs, s.rxArmed = true ∧ s.source = x :: xs ∧ w = .src x ∧ t = { s with source := xs } := by
  unfold waitingWord
  cases hA : s.rxArmed <;> cases hS : s.source <;> simp [eq_comm]

theorem waitingWord_eq_none {s : State} : waitingWord s = none ↔ s.rxArmed = false ∨ s.source = [] := by
  unfold waitingWord
  cases hA : s.rxArmed <;> cases hS : s.source <;> simp

/-- A response that the host takes before a request is one of the engine that could take the request. -/
theorem responseFirst_eq_some {w : PortWord} {s t : State} (h : responseFirst w s = some t) :
    (∃ c, w = .rxReq c) ∧ s.rxArmed = false ∧ s.rxPending ≠ none ∧ t = s.takeRx ∨
      (∃ c, w = .txReq c) ∧ s.txSt = .idle ∧ s.txPending ≠ none ∧ t = s.takeTx := by
  unfold responseFirst at h
  split at h
  · split at h <;> simp_all [Option.isSome_iff_ne_none]
  · split at h <;> simp_all [Option.isSome_iff_ne_none]
  all_goals simp at h

/-- What waits in the source does not depend on the script. -/
theorem joinsSource_script (w : PortWord) (s : State) (es : List Event) :
    joinsSource w { s with script := es } = joinsSource w s := by
  cases w <;> rfl

/-- A step that is about an offered word offers it (log 1, log 2). -/
theorem step_of_takes {s u : State} {w : PortWord} (h : Takes s w u) : step s = offer w u := by
  cases h with
  | heldRx w ws hr ha hp hq => simp [step, runStep, runNext, heldRequest, responseFirst, hr, ha, hp, hq]
  | heldTx w ws hr ha hi hp hq =>
    rcases ha with ha | ha <;> cases hA : s.rxArmed <;>
      simp_all [step, runStep, runNext, heldRequest, responseFirst]
  | reset es hh hs =>
    cases hR : s.resetDone with
    | false =>
      simp [step, runStep, runFirst, State.resetNext, runScript, lineWaitsFor, responseFirst, runEvent, joinsSource,
        hR, hs]
    | true =>
      have hN : s.noHeldReady := by simpa [hR] using hh
      simp [step, runStep, runNext, heldRequest_eq_none.mpr hN, runScript, lineWaitsFor, responseFirst, runEvent,
        joinsSource, hR, hs]
  | turn w ws es hr hN ha hq hs =>
    simp [step, runStep, runNext, heldRequest_eq_none.mpr hN, runScript, lineWaitsFor, runEvent, takeWaiting,
      waitingWord, hr, ha, hq, hs]
  | waiting w ws hr hN ha hq hs =>
    simp [step, runStep, runNext, heldRequest_eq_none.mpr hN, runScript, takeWaiting, waitingWord, hr, ha, hq, hs]
  | unowed w es hr hN hc hs =>
    simp [step, runStep, runNext, heldRequest_eq_none.mpr hN, runScript, lineWaitsFor, runEvent, staleSinkResp, hr, hc, hs]
  | script w es hr hN hw hq hp hs =>
    rw [step, runStep, if_pos hr, runNext, heldRequest_eq_none.mpr hN]
    simp only [runScript, hs, lineWaitsFor, hp, runEvent, joinsSource_script, hq]
    simp

/-- Every way a step can go that answers a next state. -/
inductive StepTo (s t : State) : Prop where
  /-- It is about an offered word. -/
  | word (w : PortWord) (u : State) (ht : Takes s w u) (ho : offer w u = .next t)
  /-- The host takes the last `rx_resp` before the next `rx_req` is taken. -/
  | takesRx (hr : s.resetDone = true) (ha : s.rxArmed = false) (hp : s.rxPending ≠ none) (ht : t = s.takeRx)
  /-- The host takes the last `tx_resp` before the next `tx_req` is taken. -/
  | takesTx (hr : s.resetDone = true) (hi : s.txSt = .idle) (hp : s.txPending ≠ none) (ht : t = s.takeTx)
  /-- A source word joins those that wait. -/
  | joins (w : SrcWord) (es : List Event) (hr : s.resetDone = true) (hs : s.script = .port (.src w) :: es)
      (ht : t = { s with script := es, source := s.source ++ [w] })
  /-- A host action. -/
  | host (e : Event) (es : List Event) (hr : s.resetDone = true) (he : isHostAction e = true)
      (hs : s.script = e :: es) (ht : runEvent e { s with script := es } = .next t)
  /-- The receive engine's turn, with nothing for it to take. -/
  | idleTurn (es : List Event) (hr : s.resetDone = true) (hs : s.script = .sourceTurn :: es)
      (ht : t = { s with script := es })
  /-- The sink answers a write that a reset cut off, and the answer is ignored. -/
  | stale (w : SinkWord) (es : List Event) (n : Nat) (hr : s.resetDone = true)
      (hs : s.script = .staleSinkResp w :: es) (hc : s.cutOffWrites = n + 1)
      (ht : t = { s with script := es, cutOffWrites := n })
  /-- The script has run out. -/
  | quiet (hr : s.resetDone = true) (hs : s.script = []) (ht : t = s.goOn)

theorem step_eq_next {s t : State} (h : step s = .next t) : StepTo s t := by
  rcases Bool.eq_false_or_eq_true s.resetDone with hR | hR
  case inr =>
    simp only [step, runStep, hR, runFirst, State.resetNext] at h
    cases hs : s.script with
    | nil => simp [hs] at h
    | cons e es =>
      by_cases he : e = .port .rst
      · subst he
        refine .word _ _ (Takes.reset es (.inl hR) hs) ?_
        simpa [hs, runScript, lineWaitsFor, responseFirst, runEvent, joinsSource] using h
      · simp [hs, he] at h
  case inl =>
    rw [step, runStep, if_pos hR, runNext] at h
    split at h
    · rename_i w u hw
      split at h
      · rename_i v hv
        obtain rfl : v = t := by simpa using h
        rcases responseFirst_eq_some hv with ⟨-, ha, hp, rfl⟩ | ⟨-, hi, hp, rfl⟩
        · exact .takesRx hR ha hp rfl
        · exact .takesTx hR hi hp rfl
      · rename_i hv
        unfold heldRequest at hw
        split at hw
        · rename_i ha hq
          simp only [Option.some.injEq, Prod.mk.injEq] at hw
          obtain ⟨rfl, rfl⟩ := hw
          exact .word _ _ (Takes.heldRx _ _ hR ha (by simpa [responseFirst, ha] using hv) hq) h
        · rename_i hno
          split at hw
          · rename_i hi hq
            simp only [Option.some.injEq, Prod.mk.injEq] at hw
            obtain ⟨rfl, rfl⟩ := hw
            refine .word _ _ (Takes.heldTx _ _ hR ?_ hi (by simpa [responseFirst, hi] using hv) hq) h
            cases hA : s.rxArmed with
            | true => exact .inl rfl
            | false =>
              cases hQ : s.rxReqs with
              | nil => exact .inr rfl
              | cons w ws => exact absurd hQ (hno w ws hA)
          · simp at hw
    · rename_i hH
      have hN := heldRequest_eq_none.mp hH
      unfold runScript at h
      split at h
      · rename_i hs
        unfold takeWaiting at h
        split at h
        · rename_i w u hw
          obtain ⟨x, xs, ha, hq, rfl, rfl⟩ := waitingWord_eq_some.mp hw
          exact .word _ _ (Takes.waiting x xs hR hN ha hq hs) h
        · exact .quiet hR hs (by simpa using h.symm)
      · rename_i e es hs
        split at h
        · rename_i v hv
          obtain rfl : v = t := by simpa using h
          cases e with
          | port w =>
            rcases responseFirst_eq_some hv with ⟨-, ha, hp, rfl⟩ | ⟨-, hi, hp, rfl⟩
            · exact .takesRx hR ha hp rfl
            · exact .takesTx hR hi hp rfl
          | _ => simp [lineWaitsFor] at hv
        · rename_i hv
          cases e with
          | port w =>
            by_cases hw : w = .rst
            · subst hw
              exact .word _ _ (Takes.reset es (.inr hN) hs) (by simpa [runEvent, joinsSource] using h)
            · cases hj : joinsSource w s with
              | false =>
                refine .word _ _ (Takes.script w es hR hN hw hj hv hs) ?_
                simpa [runEvent, joinsSource_script, hj] using h
              | true =>
                cases w with
                | src x =>
                  refine .joins x es hR hs ?_
                  simpa [runEvent, joinsSource_script, hj, State.wait] using h.symm
                | _ => simp [joinsSource] at hj
          | sourceTurn =>
            simp only [runEvent, takeWaiting] at h
            split at h
            · rename_i w u hw
              obtain ⟨x, xs, ha, hq, rfl, rfl⟩ := waitingWord_eq_some.mp hw
              exact .word _ _ (Takes.turn x xs es hR hN ha hq hs) h
            · exact .idleTurn es hR hs (by simpa using h.symm)
          | staleSinkResp w =>
            simp only [runEvent, staleSinkResp] at h
            split at h
            · rename_i hc
              exact .word _ _ (Takes.unowed w es hR hN hc hs) h
            · rename_i n hc
              exact .stale w es n hR hs hc (by simpa using h.symm)
          | _ => exact .host _ es hR rfl hs h

end Sys2Proof.Machine
end

