-- ==== Sys2Proof/Tests/Slice0.lean ====
section
/-! SUPPORT. The model's own tests: ill-formed terms, the words of the spec's encodings, the CRC table and the
frames of 95_test_vectors.md, one step of each operation, and for each obligation that has hypotheses a concrete
case that meets them all. Expected values are the spec's; the vector or the rule is named. -/

namespace Sys2Proof.Machine.Tests

/-! ## Helpers -/

/-- An armed receive engine in a state, with the given registers. -/
def rxAt (st : RxSt) (len idx : Half) (hcrc fcrc : Byte) (cap : Half) : State :=
  { State.reset with
    rxArmed := true, rxSt := st, rxLen := len, rxIdx := idx, rxHcrc := hcrc, rxFcrc := fcrc, rxCap := cap }

/-- A transmit engine with a frame in flight. -/
def sending (len : Half) (frame : List Byte) : State :=
  { State.reset with txSt := .waitSink, txLen := len, txFrame := frame, sinkWrites := [frame] }

/-- A state with script lines to come. -/
def withScript (s : State) (es : List Event) : State := { s with script := es }

/-- Frame A of 95_test_vectors.md. -/
def frameA : List Byte := [0xFA, 0x01, 0x00, 0xFE, 0xFB, 0x41, 0x43, 0xFE]

/-- What is asked holds of the next state. -/
def next? (r : Result) (p : State → Bool) : Bool :=
  match r with
  | .next s => p s
  | .fault _ => false
  | .refused _ => false

/-- The step is refused, and why. -/
def refusal? : Result → Option Refusal
  | .refused r => some r
  | .next _ => none
  | .fault _ => none

/-- The step faults, and why. -/
def fault? : Result → Option Fault
  | .fault f => some f
  | .next _ => none
  | .refused _ => none

/-- What a decoded word is, where it is an operation. -/
def op? (k : Ctx) (w : PortWord) : Option Instr :=
  match decode k w with
  | .ok i => some i
  | .error _ => none

/-- Why an offered word is not taken. -/
def reject? (k : Ctx) (w : PortWord) : Option Reject :=
  match decode k w with
  | .ok _ => none
  | .error r => some r

/-! ## Ill-formed terms, one for each check of WellFormed -/

theorem test_wf_skip_is_no_start_marker : (Instr.rxWsSkip 0xFA).wellFormed = false := by decide
theorem test_wf_dsBad_is_no_data_start_marker : (Instr.rxDsBad 0xFB).wellFormed = false := by decide
theorem test_wf_stopBad_is_no_stop_marker : (Instr.rxStopBad 0xFE).wellFormed = false := by decide
theorem test_wf_nopay_has_a_length : (Instr.txReqNopay 0).wellFormed = false := by decide
theorem test_wf_toobig_is_not_nopay : (Instr.txReqToobig false 1).wellFormed = false := by decide
theorem test_wf_send_is_not_nopay : (Instr.txReqSend false 1).wellFormed = false := by decide
theorem test_wf_sinkOk_below_shortest_frame : (Instr.txSinkOk 6).wellFormed = false := by decide
theorem test_wf_sinkOk_above_longest_frame : (Instr.txSinkOk 65543).wellFormed = false := by decide

/-! ## Decoding: every operation's word, written from its encoding (30_encoding.md R81 to R90) -/

theorem test_decode_rxIoerr : op? (rxAt .payload 1 0 0 0 4).ctx (.src 0b110100101#9) = some (.rxIoerr 0xA5) := by
  decide
theorem test_decode_rxWsStart : op? (rxAt .waitStart 0 0 0 0 4).ctx (.src 0b011111010#9) = some .rxWsStart := by
  decide
theorem test_decode_rxWsSkip : op? (rxAt .waitStart 0 0 0 0 4).ctx (.src 0b011111110#9) = some (.rxWsSkip 0xFE) := by
  decide
theorem test_decode_rxLenLow : op? (rxAt .lenLow 0 0 0 0 4).ctx (.src 0b011111010#9) = some (.rxLenLow 0xFA) := by
  decide
theorem test_decode_rxLenHigh : op? (rxAt .lenHigh 1 0 0 0 4).ctx (.src 0b000000001#9) = some (.rxLenHigh 0x01) := by
  decide
theorem test_decode_rxHdrOk : op? (rxAt .hdrCrc 1 0 0xFE 0 4).ctx (.src 0b011111110#9) = some (.rxHdrOk 0xFE) := by
  decide
theorem test_decode_rxHdrBad : op? (rxAt .hdrCrc 1 0 0xFE 0 4).ctx (.src 0b011111111#9) = some (.rxHdrBad 0xFF) := by
  decide
theorem test_decode_rxDsOk : op? (rxAt .dataStart 1 0 0xFE 0 4).ctx (.src 0b011111011#9) = some .rxDsOk := by
  decide
theorem test_decode_rxDsOk0 : op? (rxAt .dataStart 0 0 0xEB 0 4).ctx (.src 0b011111011#9) = some .rxDsOk0 := by
  decide
theorem test_decode_rxDsBad : op? (rxAt .dataStart 1 0 0xFE 0 4).ctx (.src 0b011111100#9) = some (.rxDsBad 0xFC) := by
  decide
theorem test_decode_rxPayStore :
    op? (rxAt .payload 2 0 0xC1 0xEF 1).ctx (.src 0b001000001#9) = some (.rxPayStore 0x41) := by decide
theorem test_decode_rxPayDrop :
    op? (rxAt .payload 2 1 0xC1 0x43 1).ctx (.src 0b001000010#9) = some (.rxPayDrop 0x42) := by decide
theorem test_decode_rxFcBadcrc :
    op? (rxAt .fullCrc 1 1 0xFE 0x44 4).ctx (.src 0b001000011#9) = some (.rxFcBadcrc 0x43) := by decide
theorem test_decode_rxFcBadlen :
    op? (rxAt .fullCrc 2 2 0xC1 0x07 1).ctx (.src 0b000000111#9) = some (.rxFcBadlen 0x07) := by decide
theorem test_decode_rxFcOk_at_capacity :
    op? (rxAt .fullCrc 2 2 0xC1 0x07 2).ctx (.src 0b000000111#9) = some (.rxFcOk 0x07) := by decide
theorem test_decode_rxStopOk : op? (rxAt .stop 1 1 0xFE 0x43 4).ctx (.src 0b011111110#9) = some .rxStopOk := by
  decide
theorem test_decode_rxStopBad : op? (rxAt .stop 1 1 0xFE 0x43 4).ctx (.src 0b011111010#9) = some (.rxStopBad 0xFA) := by
  decide
theorem test_decode_rxReq : op? State.reset.ctx (.rxReq 0b0000000000010000#16) = some (.rxReq 16) := by decide
theorem test_decode_txReqNopay :
    op? State.reset.ctx (.txReq 0b00000000000000011#17) = some (.txReqNopay 3) := by decide
theorem test_decode_txReqToobig :
    op? { State.reset with txFrameMax := 64 }.ctx (.txReq 0b10000000000111010#17) = some (.txReqToobig true 58) := by
  decide
theorem test_decode_txReqSend :
    op? State.reset.ctx (.txReq 0b10000000000001110#17) = some (.txReqSend true 14) := by decide
theorem test_decode_txReqSend_largest :
    op? State.reset.ctx (.txReq 0b11111111111111111#17) = some (.txReqSend true 65535) := by decide
theorem test_decode_txSinkOk :
    op? (sending 1 frameA).ctx (.sinkResp 0b000000000000001000#18) = some (.txSinkOk 8) := by decide
theorem test_decode_txSinkShort :
    op? (sending 1 frameA).ctx (.sinkResp 0b000000000000000101#18) = some (.txSinkShort 5) := by decide
theorem test_decode_txSinkErr :
    op? (sending 1 frameA).ctx (.sinkResp 0b100000000000001000#18) = some (.txSinkErr 8) := by decide
theorem test_decode_txSinkStray :
    op? State.reset.ctx (.sinkResp 0b110000000000000111#18) = some (.txSinkStray true 65543) := by decide
theorem test_decode_reset : op? (rxAt .stop 1 1 0xFE 0x43 4).ctx .rst = some .reset := by decide
theorem test_decode_rxReq_held_while_armed :
    reject? (rxAt .waitStart 0 0 0 0 4).ctx (.rxReq 8) = some .rxReqHeld := by decide
theorem test_decode_src_not_taken_while_disarmed :
    reject? State.reset.ctx (.src 0b011111010#9) = some .srcNotTaken := by decide
theorem test_decode_txReq_held_while_waiting :
    reject? (sending 1 frameA).ctx (.txReq 0b00000000000000000#17) = some .txReqHeld := by decide

/-! ## Table words (log 16, log 17) -/

theorem test_tableWord_error_flag : decodeTableWord 16 0x100 = some (.rxIoerr 0) := by decide
theorem test_tableWord_start_marker : decodeTableWord 16 0x0FA = some .rxWsStart := by decide
theorem test_tableWord_stop_marker : decodeTableWord 16 0x0FE = some .rxStopOk := by decide
theorem test_tableWord_no_bits : decodeTableWord 0 0 = some .reset := by decide
theorem test_tableWord_sink_error : decodeTableWord 24 0x20000 = some (.txSinkErr 0) := by decide

/-- The step after `withFetchWord` is `exec` of the word, with the word no longer offered. -/
theorem test_withFetchWord_start_marker :
    next? (step (State.reset.withFetchWord 16 0x0FA)) (fun t => t.rxSt == .lenLow && t.rxHcrc == 0xE8) = true := by
  decide
theorem test_withFetchWord_send :
    next? (step (State.reset.withFetchWord 24 0x10000))
      (fun t => t.txFrame == [0xFA, 0x00, 0x00, 0xEB, 0xFB, 0xEF, 0xFE]) = true := by decide +kernel

/-! ## The CRC unit (40_crc8.md R108, R109) and the frames of V-HCRC and V-FR -/

/-- 64 entries of the table `T`, from entry `n` on. -/
def tableEntries (n : Nat) : List Byte := (List.range 64).map (fun k => crc8Update 0 (BitVec.ofNat 8 (n + k)))

/-- The rows of R109's table, quarter 1. -/
theorem test_crc_table_00_to_3f :
    tableEntries 0 =
      [0x00, 0x07, 0x0E, 0x09, 0x1C, 0x1B, 0x12, 0x15, 0x38, 0x3F, 0x36, 0x31, 0x24, 0x23, 0x2A, 0x2D] ++
      [0x70, 0x77, 0x7E, 0x79, 0x6C, 0x6B, 0x62, 0x65, 0x48, 0x4F, 0x46, 0x41, 0x54, 0x53, 0x5A, 0x5D] ++
      [0xE0, 0xE7, 0xEE, 0xE9, 0xFC, 0xFB, 0xF2, 0xF5, 0xD8, 0xDF, 0xD6, 0xD1, 0xC4, 0xC3, 0xCA, 0xCD] ++
      [0x90, 0x97, 0x9E, 0x99, 0x8C, 0x8B, 0x82, 0x85, 0xA8, 0xAF, 0xA6, 0xA1, 0xB4, 0xB3, 0xBA, 0xBD] := by decide

/-- The rows of R109's table, quarter 2. -/
theorem test_crc_table_40_to_7f :
    tableEntries 64 =
      [0xC7, 0xC0, 0xC9, 0xCE, 0xDB, 0xDC, 0xD5, 0xD2, 0xFF, 0xF8, 0xF1, 0xF6, 0xE3, 0xE4, 0xED, 0xEA] ++
      [0xB7, 0xB0, 0xB9, 0xBE, 0xAB, 0xAC, 0xA5, 0xA2, 0x8F, 0x88, 0x81, 0x86, 0x93, 0x94, 0x9D, 0x9A] ++
      [0x27, 0x20, 0x29, 0x2E, 0x3B, 0x3C, 0x35, 0x32, 0x1F, 0x18, 0x11, 0x16, 0x03, 0x04, 0x0D, 0x0A] ++
      [0x57, 0x50, 0x59, 0x5E, 0x4B, 0x4C, 0x45, 0x42, 0x6F, 0x68, 0x61, 0x66, 0x73, 0x74, 0x7D, 0x7A] := by decide

/-- The rows of R109's table, quarter 3. -/
theorem test_crc_table_80_to_bf :
    tableEntries 128 =
      [0x89, 0x8E, 0x87, 0x80, 0x95, 0x92, 0x9B, 0x9C, 0xB1, 0xB6, 0xBF, 0xB8, 0xAD, 0xAA, 0xA3, 0xA4] ++
      [0xF9, 0xFE, 0xF7, 0xF0, 0xE5, 0xE2, 0xEB, 0xEC, 0xC1, 0xC6, 0xCF, 0xC8, 0xDD, 0xDA, 0xD3, 0xD4] ++
      [0x69, 0x6E, 0x67, 0x60, 0x75, 0x72, 0x7B, 0x7C, 0x51, 0x56, 0x5F, 0x58, 0x4D, 0x4A, 0x43, 0x44] ++
      [0x19, 0x1E, 0x17, 0x10, 0x05, 0x02, 0x0B, 0x0C, 0x21, 0x26, 0x2F, 0x28, 0x3D, 0x3A, 0x33, 0x34] := by decide

/-- The rows of R109's table, quarter 4. -/
theorem test_crc_table_c0_to_ff :
    tableEntries 192 =
      [0x4E, 0x49, 0x40, 0x47, 0x52, 0x55, 0x5C, 0x5B, 0x76, 0x71, 0x78, 0x7F, 0x6A, 0x6D, 0x64, 0x63] ++
      [0x3E, 0x39, 0x30, 0x37, 0x22, 0x25, 0x2C, 0x2B, 0x06, 0x01, 0x08, 0x0F, 0x1A, 0x1D, 0x14, 0x13] ++
      [0xAE, 0xA9, 0xA0, 0xA7, 0xB2, 0xB5, 0xBC, 0xBB, 0x96, 0x91, 0x98, 0x9F, 0x8A, 0x8D, 0x84, 0x83] ++
      [0xDE, 0xD9, 0xD0, 0xD7, 0xC2, 0xC5, 0xCC, 0xCB, 0xE6, 0xE1, 0xE8, 0xEF, 0xFA, 0xFD, 0xF4, 0xF3] := by decide

/-- R108, V-CRC-1. -/
theorem test_crc_check_value :
    crc8Block [0x31, 0x32, 0x33, 0x34, 0x35, 0x36, 0x37, 0x38, 0x39] = 0xF4 := by decide +kernel
/-- V-CRC-4. -/
theorem test_crc_from_accumulator : crc8Update 0x5A 0x3C = 0x35 ∧ crc8Block [] 0x5A = 0x5A := by decide
/-- V-HCRC. -/
theorem test_header_crcs :
    [0x0000#16, 0x0001#16, 0x0039#16, 0x00FA#16, 0x0100#16, 0x0102#16, 0xFFFF#16].map
      (fun len => crc8Block (frameHeader len)) = [0xEB, 0xFE, 0xAF, 0x7D, 0xEC, 0xC6, 0xCF] := by decide +kernel
/-- V-FR-1, V-FR-3. -/
theorem test_frames_empty_and_A :
    buildFrame [] = [0xFA, 0x00, 0x00, 0xEB, 0xFB, 0xEF, 0xFE] ∧ buildFrame [0x41] = frameA := by decide +kernel
/-- V-FR-8, V-FR-16. -/
theorem test_frames_markers_and_request :
    buildFrame [0xFB, 0xFE] = [0xFA, 0x02, 0x00, 0xC1, 0xFB, 0xFB, 0xFE, 0xF7, 0xFE] ∧
    buildFrame [0x0B, 0x05, 0x73, 0x75, 0x6D, 0x00, 0x01, 0x00, 0x00, 0x00, 0x02, 0x00, 0x00, 0x00] =
      [0xFA, 0x0E, 0x00, 0x3D, 0xFB, 0x0B, 0x05, 0x73, 0x75, 0x6D, 0x00, 0x01, 0x00, 0x00, 0x00, 0x02, 0x00, 0x00,
        0x00, 0x79, 0xFE] := by decide +kernel
/-- R76: frame A is well-formed; with its stop marker, its FCRC or its length changed it is not. -/
theorem test_isFrame :
    [frameA, frameA.set 7 0xFF, frameA.set 6 0x44, frameA.set 1 0x02, frameA ++ [0x00]].map isFrame =
      [true, false, false, false, false] := by decide +kernel

/-! ## One step of each operation -/

/-- V-RX-8. -/
theorem test_exec_rxIoerr :
    next? (exec (.rxIoerr 0x33) (rxAt .fullCrc 1 1 0xFE 0x43 4))
      (fun t => t.rxPending == some 0x10000#18 && !t.rxArmed && t.rxSt == .waitStart && t.rxLen == 0 && t.rxCap == 4)
      = true := by decide
/-- V-RX-1. -/
theorem test_exec_rxWsStart :
    next? (exec .rxWsStart (rxAt .waitStart 0 0 0 0 4)) (fun t => t.rxSt == .lenLow && t.rxHcrc == 0xE8) = true := by
  decide
/-- V-RX-1. -/
theorem test_exec_rxWsSkip :
    next? (exec (.rxWsSkip 0xFB) (rxAt .waitStart 0 0 0 0 4)) (fun t => t == rxAt .waitStart 0 0 0 0 4) = true := by
  decide
/-- V-RX-1. -/
theorem test_exec_rxLenLow :
    next? (exec (.rxLenLow 0x01) (rxAt .lenLow 0 0 0xE8 0 4))
      (fun t => t == rxAt .lenHigh 0x0001 0 0x91 0 4) = true := by decide
/-- V-RX-11: the high byte of a length whose low byte is 6B. -/
theorem test_exec_rxLenHigh :
    next? (exec (.rxLenHigh 0xFE) (rxAt .lenHigh 0x006B 0 (crc8Block [0xFA, 0x6B]) 0 4))
      (fun t => t == rxAt .hdrCrc 0xFE6B 0 0x7D 0 4) = true := by decide +kernel
/-- V-RX-1. -/
theorem test_exec_rxHdrOk :
    next? (exec (.rxHdrOk 0xFE) (rxAt .hdrCrc 1 0 0xFE 0 4)) (fun t => t == rxAt .dataStart 1 0 0xFE 0x00 4) = true := by
  decide +kernel
/-- V-RX-3. -/
theorem test_exec_rxHdrBad :
    next? (exec (.rxHdrBad 0xFF) (rxAt .hdrCrc 1 0 0xFE 0 4)) (fun t => t == rxAt .waitStart 0 0 0 0 4) = true := by
  decide
/-- V-RX-1. -/
theorem test_exec_rxDsOk :
    next? (exec .rxDsOk (rxAt .dataStart 1 0 0xFE 0 4)) (fun t => t == rxAt .payload 1 0 0xFE 0xEF 4) = true := by
  decide
/-- V-RX-2. -/
theorem test_exec_rxDsOk0 :
    next? (exec .rxDsOk0 (rxAt .dataStart 0 0 0xEB 0 0)) (fun t => t == rxAt .fullCrc 0 0 0xEB 0xEF 0) = true := by
  decide
/-- V-RX-4. -/
theorem test_exec_rxDsBad :
    next? (exec (.rxDsBad 0xFC) (rxAt .dataStart 1 0 0xFE 0 4)) (fun t => t == rxAt .waitStart 0 0 0 0 4) = true := by
  decide
/-- V-RX-5: the first of two bytes. -/
theorem test_exec_rxPayStore :
    next? (exec (.rxPayStore 0x41) (rxAt .payload 2 0 0xC1 0xEF 1))
      (fun t => t == { rxAt .payload 2 1 0xC1 0x43 1 with mem := [(0, 0x41)], rxBufWrs := [(0, 0x41)] })
      = true := by decide
/-- V-RX-6: the last byte, over an earlier one. -/
theorem test_exec_rxPayStore_last :
    next? (exec (.rxPayStore 0x40) { rxAt .payload 1 0 0xFE 0xEF 4 with mem := [(0, 0x11)] })
      (fun t => t == { rxAt .fullCrc 1 1 0xFE 0x44 4 with mem := [(0, 0x40)], rxBufWrs := [(0, 0x40)] })
      = true := by decide
/-- R66, U5: a store to a byte that the host wrote in the same request leaves a free value (log 10). -/
theorem test_exec_rxPayStore_raced :
    ∃ t, hostWrite 0 0x11 (rxAt .payload 2 0 0xC1 0xEF 1) = .next t ∧ t.raced = [0] ∧
      ∃ u, exec (.rxPayStore 0x41) t = .next u ∧ u.mem.read 0 = Config.raceStoreByte 0 := ⟨_, rfl, rfl, _, rfl, rfl⟩
/-- V-RX-5. -/
theorem test_exec_rxPayDrop :
    next? (exec (.rxPayDrop 0x42) (rxAt .payload 2 1 0xC1 0x43 1))
      (fun t => t == rxAt .fullCrc 2 2 0xC1 0x07 1) = true := by decide
/-- V-RX-6. -/
theorem test_exec_rxFcBadcrc :
    next? (exec (.rxFcBadcrc 0x43) (rxAt .fullCrc 1 1 0xFE 0x44 4)) (fun t => t == rxAt .waitStart 0 0 0 0 4)
      = true := by decide
/-- V-RX-5. -/
theorem test_exec_rxFcBadlen :
    next? (exec (.rxFcBadlen 0x07) (rxAt .fullCrc 2 2 0xC1 0x07 1)) (fun t => t == rxAt .waitStart 0 0 0 0 1)
      = true := by decide
/-- V-RX-12a: a length equal to the capacity. -/
theorem test_exec_rxFcOk :
    next? (exec (.rxFcOk 0x07) (rxAt .fullCrc 2 2 0xC1 0x07 2)) (fun t => t == rxAt .stop 2 2 0xC1 0x07 2)
      = true := by decide
/-- P1: `rx_resp OK 14` is the word 0x0000E. -/
theorem test_exec_rxStopOk :
    next? (exec .rxStopOk (rxAt .stop 14 14 0x3D 0x79 16))
      (fun t => t == { rxAt .waitStart 0 0 0 0 16 with
        rxArmed := false, rxPending := some 0x0000E#18, rxResps := [0x0000E#18] }) = true := by decide
/-- V-RX-7: the byte is consumed and is no start marker. -/
theorem test_exec_rxStopBad :
    next? (exec (.rxStopBad 0xFA) (rxAt .stop 1 1 0xFE 0x43 4)) (fun t => t == rxAt .waitStart 0 0 0 0 4) = true := by
  decide
/-- V-RX-2. -/
theorem test_exec_rxReq :
    next? (exec (.rxReq 0) State.reset) (fun t => t == rxAt .waitStart 0 0 0 0 0) = true := by decide
/-- V-TX-4: NO_PAYLOAD is checked first. -/
theorem test_exec_txReqNopay :
    next? (exec (.txReqNopay 58) { State.reset with txFrameMax := 64 })
      (fun t => t == { State.reset with txFrameMax := 64, txPending := some 1, txResps := [1] }) = true := by decide
/-- V-TX-4: 58 + 7 exceeds 64. -/
theorem test_exec_txReqToobig :
    next? (exec (.txReqToobig true 58) { State.reset with txFrameMax := 64 })
      (fun t => t == { State.reset with txFrameMax := 64, txPending := some 2, txResps := [2] }) = true := by decide
/-- V-TX-1. -/
theorem test_exec_txReqSend :
    next? (exec (.txReqSend true 1) { State.reset with mem := [(65536, 0x41)] })
      (fun t => t == { sending 1 frameA with mem := [(65536, 0x41)] }) = true := by decide +kernel
/-- V-TX-2: an empty payload that is not present is sent. -/
theorem test_exec_txReqSend_empty :
    next? (exec (.txReqSend false 0) State.reset)
      (fun t => t == sending 0 [0xFA, 0x00, 0x00, 0xEB, 0xFB, 0xEF, 0xFE]) = true := by decide +kernel
/-- V-TX-1. -/
theorem test_exec_txSinkOk :
    next? (exec (.txSinkOk 8) (sending 1 frameA))
      (fun t => t ==
        { State.reset with txPending := some 0, txResps := [0], sinkWrites := [frameA], line := frameA }) = true := by
  decide
/-- V-TX-6: fewer bytes than the frame. -/
theorem test_exec_txSinkShort :
    next? (exec (.txSinkShort 5) (sending 1 frameA))
      (fun t => t ==
        { State.reset with txPending := some 3, txResps := [3], sinkWrites := [frameA], line := frameA.take 5 })
      = true := by decide
/-- V-TX-6: more bytes than the frame. -/
theorem test_exec_txSinkShort_more :
    next? (exec (.txSinkShort 9) (sending 1 frameA)) (fun t => t.txResps == [3] && t.txSt == .idle) = true := by decide
/-- V-TX-6. -/
theorem test_exec_txSinkErr :
    next? (exec (.txSinkErr 8) (sending 1 frameA))
      (fun t => t.txResps == [4] && t.txSt == .idle && t.txLen == 0 && t.txFrame == []) = true := by decide
/-- V-TX-8. -/
theorem test_exec_txSinkStray :
    next? (exec (.txSinkStray false 7) State.reset) (fun t => t == State.reset) = true := by decide
/-- P5, D35: a frame in flight and a held request are lost; the receive side keeps nothing. -/
theorem test_exec_reset :
    next? (exec .reset { sending 1 frameA with rxArmed := true, rxSt := .stop, rxLen := 1, rxCap := 4, txReqs := [0] })
      (fun t => !t.rxArmed && t.rxSt == .waitStart && t.rxLen == 0 && t.rxCap == 0 && t.txSt == .idle &&
        t.txLen == 0 && t.txFrame == [] && t.txResps == [] && t.txReqs == []) = true := by decide
/-- An operation that its state does not select (log 15). -/
theorem test_exec_notSelected : refusal? (exec .rxStopOk State.reset) = some .notSelected := by decide

/-! ## The order of steps (60_exceptions.md R207, R215) -/

/-- R215: a word waits in the source of an armed engine, and the transmit engine goes first. -/
theorem test_step_other_agent_first :
    next? (step { rxAt .lenLow 0 0 0xE8 0 4 with source := [1], script := [.port (.txReq 0x00003#17)] })
      (fun t => t.source == [1] && t.rxSt == .lenLow && t.txPending == some 1) = true := by decide
/-- R122, R215: the receive engine's turn comes first. -/
theorem test_step_source_turn :
    next? (step { rxAt .lenLow 0 0 0xE8 0 4 with source := [1], script := [.sourceTurn, .port (.txReq 0x00003#17)] })
      (fun t => t.source == [] && t.rxSt == .lenHigh && t.txPending == none) = true := by decide
/-- R207: a pending response is taken before the next request is, and the request is still offered. -/
theorem test_step_response_taken_first :
    next? (step { State.reset with rxPending := some 0x00001#18, script := [.port (.rxReq 4)] })
      (fun t => t.rxPending == none && !t.rxArmed && t.script == [.port (.rxReq 4)]) = true := by decide
/-- R122: source words are taken in the order they came. -/
theorem test_step_source_word_joins :
    next? (step { rxAt .lenLow 0 0 0xE8 0 4 with source := [1], script := [.port (.src 2)] })
      (fun t => t.source == [1, 2] && t.rxSt == .lenLow) = true := by decide
/-- R231: a reset in WAIT_SINK, a new request, and then the answer to the write before the reset: it is ignored. -/
theorem test_stale_sink_answer :
    next? (Sys2Proof.core.run 3
        (withScript (sending 1 frameA) [.port .rst, .port (.txReq 0), .staleSinkResp 0x00008#18]))
      (fun t => t.txSt == .waitSink && t.txResps == [] && t.cutOffWrites == 0 && t.script == []) = true := by
  decide +kernel
/-- R218 (b): the lines of an endless script come again. -/
theorem test_step_endless :
    next? (step { rxAt .waitStart 0 0 0 0 4 with endless := .repeats [.port (.src 0)] })
      (fun t => t.script == [.port (.src 0)] && t.endless == .repeats [.port (.src 0)]) = true := by decide

/-! ## Stops -/

/-- R233, U1. -/
theorem test_before_first_reset :
    refusal? (step { State.reset with resetDone := false, script := [.port (.rxReq 4)] }) = some .beforeFirstReset := by
  decide
/-- R237, U11. -/
theorem test_buffer_too_small :
    refusal? (exec (.rxReq 5) { State.reset with rxBufSize := 4 }) = some .receiveBufferTooSmall := by decide
/-- R239, U12. -/
theorem test_payload_duty :
    refusal? (step (withScript { sending 1 frameA with mem := [(65536, 0x41)] } [.txMem [0x42]]))
      = some .payloadDutyBroken := by decide
/-- R239, log 11: rewriting a byte of the frame in flight with its value goes through. -/
theorem test_payload_duty_same_value :
    next? (step (withScript { sending 1 frameA with mem := [(65536, 0x41)] } [.txMem [0x41, 0x42]]))
      (fun t => t.mem == [(65536, 0x41), (65537, 0x42)]) = true := by decide
/-- R239, U3, log 11: so does rewriting a byte that nothing has written yet with the value it reads as. -/
theorem test_payload_duty_unwritten_value :
    dutyKept (sending 1 frameA)
      { sending 1 frameA with mem := [(65536, Config.powerOnByte 65536)] } = true := by
  simp [dutyKept, State.dutyLen, sending, State.reset, Memory.sameAt, Memory.read, Memory.peek]
/-- A host access beyond the buffer (log 20). -/
theorem test_host_outside_buffer :
    fault? (step (withScript { State.reset with rxBufSize := 4 } [.hostRead 4])) = some .hostOutsideBuffer := by decide

/-! ## Witnesses: for each obligation that has hypotheses, cases that meet them all -/

/-- A listening engine with a capacity, to which the source delivers bytes. -/
def listening (cap : Half) (bs : List Byte) : State := withScript (rxAt .waitStart 0 0 0 0 cap) (deliver bs)

theorem listening_meets (cap : Half) (bs : List Byte) : (listening cap bs).Listening bs [] :=
  ⟨rfl, rfl, rfl, by have := cap.isLt; show cap.toNat ≤ 65536; omega, rfl, .inr rfl, by simp [listening, withScript]⟩

/-- No byte of its buffer races: the premise of what RoundTrip, AcceptanceMeansAFrame and OversizeFrameIsRejectedLate
say of the buffer. -/
theorem listening_not_raced (cap : Half) (bs : List Byte) (i : Nat) :
    (listening cap bs).rxBase + i ∉ (listening cap bs).raced := List.not_mem_nil

theorem witness_CrcIsLinear : ([0x31, 0x32] : List Byte).length = ([0x00, 0x80] : List Byte).length := rfl
theorem witness_CrcDetectsOddErrors :
    ([0x31, 0x32] : List Byte).length = ([0x80, 0x03] : List Byte).length ∧
    (([0x80, 0x03] : List Byte).map (fun b => (List.range 8).countP (fun i => b.getLsbD i))).sum % 2 = 1 := by decide
/-- An error across two bytes, and one in a sequence of one byte: the first and the last bit of a window of 8. -/
theorem witness_CrcDetectsShortBursts :
    (([0x31, 0x32] : List Byte).length = ([0x01, 0x02] : List Byte).length ∧ errorBit [0x01, 0x02] 7 = true ∧
      ∀ p q, errorBit [0x01, 0x02] p = true → errorBit [0x01, 0x02] q = true → q < p + 8) ∧
    (([0x31] : List Byte).length = ([0x81] : List Byte).length ∧ errorBit [0x81] 0 = true ∧
      ∀ p q, errorBit [0x81] p = true → errorBit [0x81] q = true → q < p + 8) := by
  have two (p : Nat) (h : errorBit [0x01, 0x02] p = true) : p = 7 ∨ p = 14 := by
    have hp : p < 16 := errorBit_lt h
    interval_cases p <;> first | omega | (revert h; decide)
  have one (p : Nat) (h : errorBit [0x81] p = true) : p = 0 ∨ p = 7 := by
    have hp : p < 8 := errorBit_lt h
    interval_cases p <;> first | omega | (revert h; decide)
  refine ⟨⟨rfl, by decide, fun p q hp hq => ?_⟩, rfl, by decide, fun p q hp hq => ?_⟩
  · rcases two p hp with rfl | rfl <;> rcases two q hq with rfl | rfl <;> omega
  · rcases one p hp with rfl | rfl <;> rcases one q hq with rfl | rfl <;> omega
/-- The empty payload and the longest one; the same for FullCrcFormsAgree. -/
theorem witness_BuildFrameIsWellFormed :
    ([] : List Byte).length ≤ 65535 ∧ (List.replicate 65535 (0x00 : Byte)).length ≤ 65535 :=
  ⟨by decide, by rw [List.length_replicate]⟩
theorem witness_FullCrcFormsAgree : frameA.length ≤ 65535 := by decide
theorem witness_CrcZeroResidue : isFrame frameA = true ∧ isFrame (buildFrame []) = true := by decide +kernel
theorem witness_FrameIsBuiltFromItsPayload : isFrame frameA = true := by decide +kernel
theorem witness_SingleBitFlipBreaksFrame : 0 < frameA.length ∧ 7 < frameA.length ∧ isFrame frameA = true := by
  decide +kernel
/-- One operation for each clause of DecodeEncodeAgree. -/
theorem witness_DecodeEncodeAgree :
    selects (rxAt .payload 2 1 0xC1 0x43 1).ctx (.rxPayDrop 0x42) = true ∧
    op? (sending 1 frameA).ctx (.sinkResp 0x00008#18) = some (.txSinkOk 8) ∧
    (Instr.txSinkOk 7).wellFormed = true ∧ (Instr.txSinkOk 65542).wellFormed = true := by decide
theorem witness_SourceWordSelectsOneOperation :
    (rxAt .dataStart 0 0 0xEB 0 0).ctx.rxArmed = true ∧ srcError 0b100000000#9 = true := by decide
theorem witness_TransmitWordSelectsOneOperation : State.reset.ctx.txSt = .idle := rfl
/-- Each way a step takes a word, with a word that its engine takes. -/
theorem witness_StepRunsTheDecodedInstruction :
    (Takes { State.reset with rxReqs := [4] } (.rxReq 4) State.reset ∧
      op? State.reset.ctx (.rxReq 4) = some (.rxReq 4)) ∧
    (Takes { State.reset with txReqs := [0] } (.txReq 0) State.reset ∧
      op? State.reset.ctx (.txReq 0) = some (.txReqSend false 0)) ∧
    (Takes (withScript State.reset [.port .rst]) .rst State.reset ∧ op? State.reset.ctx .rst = some .reset) ∧
    (Takes { rxAt .lenLow 0 0 0xE8 0 4 with source := [1] } (.src 1) (rxAt .lenLow 0 0 0xE8 0 4) ∧
      op? (rxAt .lenLow 0 0 0xE8 0 4).ctx (.src 1) = some (.rxLenLow 1)) ∧
    (Takes (withScript State.reset [.port (.sinkResp 0)]) (.sinkResp 0) State.reset ∧
      op? State.reset.ctx (.sinkResp 0) = some (.txSinkStray false 0)) :=
  ⟨⟨.heldRx 4 [] rfl rfl rfl rfl, by decide⟩,
    ⟨.heldTx 0 [] rfl (.inr rfl) rfl rfl rfl, by decide⟩,
    ⟨.reset [] (.inr ⟨.inr rfl, .inr rfl⟩) rfl, by decide⟩,
    ⟨.waiting 1 [] rfl ⟨.inl rfl, .inr rfl⟩ rfl rfl rfl, by decide⟩,
    ⟨.script (.sinkResp 0) [] rfl ⟨.inr rfl, .inr rfl⟩ (by decide) rfl rfl rfl, by decide⟩⟩
theorem witness_StepRunsTheDecodedInstruction_turn :
    Takes { rxAt .lenLow 0 0 0xE8 0 4 with source := [1], script := [.sourceTurn] } (.src 1)
      (rxAt .lenLow 0 0 0xE8 0 4) := .turn 1 [] [] rfl ⟨.inl rfl, .inr rfl⟩ rfl rfl rfl
/-- A word that its engine does not take: the second clause of StepRunsTheDecodedInstruction. -/
theorem witness_StepRunsTheDecodedInstruction_waits :
    Takes (withScript State.reset [.port (.src 0x0FA)]) (.src 0x0FA) State.reset ∧
    reject? State.reset.ctx (.src 0x0FA) = some .srcNotTaken :=
  ⟨.script (.src 0x0FA) [] rfl ⟨.inr rfl, .inr rfl⟩ (by decide) rfl rfl rfl, by decide⟩
theorem witness_UnselectedOperationsAreRefused : selects State.reset.ctx .rxStopOk = false := by decide
theorem witness_UntakenWordsWait :
    (rxAt .waitStart 0 0 0 0 4).rxArmed = true ∧ (sending 1 frameA).txSt = .waitSink ∧
    State.reset.rxArmed = false ∧ { State.reset with source := [1] }.source ≠ [] := ⟨rfl, rfl, rfl, by decide⟩

/-- A state that meets the invariant with both engines busy: the last payload byte of frame A is to come, and
frame A is in flight. -/
def busy : State :=
  { rxAt .payload 1 0 0xFE 0xEF 4 with
    txSt := .waitSink, txLen := 1, txFrame := frameA, sinkWrites := [frameA], mem := [(65536, 0x41)] }

theorem busy_inv : busy.Inv where
  afterReset := rfl
  memWf := by decide
  rxRow := ⟨by decide, by decide +kernel, [], by decide, by decide +kernel, by decide⟩
  disarmed := by decide
  buffer := by decide
  txRow := ⟨by decide +kernel, by decide, by decide, by decide⟩
  taken := ⟨fun _ => rfl, fun _ => rfl⟩

/-- The invariant does not depend on the script. -/
theorem scripted_inv (es : List Event) : (withScript busy es).Inv :=
  ⟨rfl, busy_inv.memWf, busy_inv.rxRow, busy_inv.disarmed, busy_inv.buffer, busy_inv.txRow, busy_inv.taken⟩

/-- The invariant, a word for each port, and an `rx_req` whose capacity is all of the buffer. -/
theorem witness_EveryOfferedWordIsProcessed :
    (withScript busy [.port (.src 0x041)]).Inv ∧ Takes (withScript busy [.port (.src 0x041)]) (.src 0x041) busy ∧
    (∀ c, PortWord.src 0x041 = .rxReq c → c.toNat ≤ busy.rxBufSize) :=
  ⟨scripted_inv _,
    .script (.src 0x041) [] rfl ⟨.inl rfl, .inr rfl⟩ (by decide) rfl rfl rfl, by simp⟩

theorem witness_RxReqArmsTheReceiver :
    State.reset.rxArmed = false ∧ (0 : Half).toNat ≤ State.reset.rxBufSize ∧
    (0xFFFF : Half).toNat ≤ State.reset.rxBufSize ∧ (rxAt .waitStart 0 0 0 0 4).rxArmed = true := by decide
theorem witness_StartMarkerBeginsCandidate :
    (rxAt .waitStart 0 0 0 0 4).rxArmed = true ∧ (rxAt .waitStart 0 0 0 0 4).rxSt = .waitStart := ⟨rfl, rfl⟩
theorem witness_OtherBytesAreSkipped :
    (rxAt .waitStart 0 0 0 0 4).rxArmed = true ∧ (rxAt .waitStart 0 0 0 0 4).rxSt = .waitStart ∧
    (0xF9 : Byte) ≠ 0xFA ∧ (0xFB : Byte) ≠ 0xFA := by decide
theorem witness_LengthBytesAreTaken :
    ((rxAt .lenLow 0 0 0xE8 0 4).rxArmed = true ∧ (rxAt .lenLow 0 0 0xE8 0 4).rxSt = .lenLow) ∧
    ((rxAt .lenHigh 1 0 0x91 0 4).rxArmed = true ∧ (rxAt .lenHigh 1 0 0x91 0 4).rxSt = .lenHigh) := by decide
theorem witness_HeaderCrcMatchSeedsFullCrc :
    let s := rxAt .hdrCrc 1 0 0xFE 0 4
    s.rxArmed = true ∧ s.rxSt = .hdrCrc ∧ s.rxHcrc = crc8Block [0xFA, lowByte s.rxLen, highByte s.rxLen] := by
  decide +kernel
/-- One case for each of the five framing errors; the over-long length is the capacity and one. -/
theorem witness_FramingErrorsAbandonTheCandidate :
    ((rxAt .hdrCrc 1 0 0xFE 0 4).rxSt = .hdrCrc ∧ (0xFF : Byte) ≠ (rxAt .hdrCrc 1 0 0xFE 0 4).rxHcrc) ∧
    ((rxAt .dataStart 1 0 0xFE 0 4).rxSt = .dataStart ∧ (0xFC : Byte) ≠ 0xFB) ∧
    ((rxAt .fullCrc 1 1 0xFE 0x44 4).rxSt = .fullCrc ∧ (0x43 : Byte) ≠ (rxAt .fullCrc 1 1 0xFE 0x44 4).rxFcrc) ∧
    ((rxAt .fullCrc 2 2 0xC1 0x07 1).rxSt = .fullCrc ∧ (0x07 : Byte) = (rxAt .fullCrc 2 2 0xC1 0x07 1).rxFcrc ∧
      (rxAt .fullCrc 2 2 0xC1 0x07 1).rxCap.toNat < (rxAt .fullCrc 2 2 0xC1 0x07 1).rxLen.toNat) ∧
    ((rxAt .stop 1 1 0xFE 0x43 4).rxSt = .stop ∧ (0xFA : Byte) ≠ 0xFE) ∧
    (rxAt .stop 1 1 0xFE 0x43 4).rxArmed = true := by decide
theorem witness_DataStartMarkerOpensPayload :
    ((rxAt .dataStart 1 0 0xFE 0 4).rxArmed = true ∧ (rxAt .dataStart 1 0 0xFE 0 4).rxSt = .dataStart ∧
      (rxAt .dataStart 1 0 0xFE 0 4).rxLen ≠ 0) ∧
    ((rxAt .dataStart 0 0 0xEB 0 0).rxArmed = true ∧ (rxAt .dataStart 0 0 0xEB 0 0).rxSt = .dataStart ∧
      (rxAt .dataStart 0 0 0xEB 0 0).rxLen = 0) := by decide
/-- The first index and the last one within the capacity. -/
theorem witness_PayloadByteIsStored :
    ∀ s ∈ [rxAt .payload 5 0 0xAA 0xEF 4, rxAt .payload 5 3 0xAA 0 4],
      s.rxArmed = true ∧ s.rxSt = .payload ∧ s.rxIdx.toNat < s.rxCap.toNat ∧ s.rxCap.toNat ≤ s.rxBufSize ∧
        s.rxAddr s.rxIdx ∉ s.raced := by decide
/-- The first index beyond the capacity, and a capacity of 0. -/
theorem witness_PayloadByteIsDropped :
    ∀ s ∈ [rxAt .payload 5 4 0xAA 0 4, rxAt .payload 250 0 0x7D 0xEF 0],
      s.rxArmed = true ∧ s.rxSt = .payload ∧ s.rxCap.toNat ≤ s.rxIdx.toNat := by decide
theorem witness_FullCrcMatchWaitsForStop :
    ∀ s ∈ [rxAt .fullCrc 2 2 0xC1 0x07 2, rxAt .fullCrc 0 0 0xEB 0xEF 0],
      s.rxArmed = true ∧ s.rxSt = .fullCrc ∧ s.rxLen.toNat ≤ s.rxCap.toNat := by decide
theorem witness_StopMarkerAcceptsTheFrame :
    (rxAt .stop 1 1 0xFE 0x43 4).rxArmed = true ∧ (rxAt .stop 1 1 0xFE 0x43 4).rxSt = .stop := ⟨rfl, rfl⟩
theorem witness_SourceErrorEndsTheRequest : (rxAt .waitStart 0 0 0 0 4).rxArmed = true := rfl
theorem witness_MissingPayloadIsAnswered : State.reset.txSt = .idle ∧ (1 : Half) ≠ 0 := by decide
/-- V-TX-4: 58 bytes are one too many; with the least limit, 7, one byte is. -/
theorem witness_OversizeRequestIsAnswered :
    (let s := { State.reset with txFrameMax := 64 };
      s.txSt = .idle ∧ s.txFrameMax < (58 : Half).toNat + 7) ∧
    (let s := { State.reset with txFrameMax := 7 };
      s.txSt = .idle ∧ s.txFrameMax < (1 : Half).toNat + 7) := by decide
/-- V-TX-4 and V-TX-2: 57 bytes are just allowed; an empty payload that is not present. -/
theorem witness_SendBuildsAndHandsOverTheFrame :
    (let s := { State.reset with txFrameMax := 64 };
      s.txSt = .idle ∧ (57 : Half).toNat + 7 ≤ s.txFrameMax) ∧
    (State.reset.txSt = .idle ∧ (0 : Half) = 0 ∧ (0 : Half).toNat + 7 ≤ State.reset.txFrameMax) := by decide
/-- V-TX-6: the frame size, one less, one more, and none. -/
theorem witness_SinkCountEndsTheRequest :
    (sending 1 frameA).txSt = .waitSink ∧ (8#17).toNat = (sending 1 frameA).txLen.toNat + 7 ∧
    (7#17).toNat ≠ (sending 1 frameA).txLen.toNat + 7 ∧ (9#17).toNat ≠ (sending 1 frameA).txLen.toNat + 7 ∧
    (0#17).toNat ≠ (sending 1 frameA).txLen.toNat + 7 := by decide
theorem witness_SinkErrorEndsTheRequest : (sending 1 frameA).txSt = .waitSink := rfl
/-- An idle engine; a reset in WAIT_SINK and in IDLE; a stale answer in WAIT_SINK. -/
theorem witness_StraySinkAnswerIsIgnored :
    State.reset.txSt = .idle ∧
    (∃ t, exec .reset (sending 1 frameA) = .next t ∧ t.cutOffWrites = 1) ∧
    (∃ t, exec .reset State.reset = .next t ∧ t.cutOffWrites = 0) ∧
    (let s := { withScript (sending 1 frameA) [.staleSinkResp 0x00008#18] with cutOffWrites := 1 };
      s.resetDone = true ∧ s.noHeldReady ∧ s.script = .staleSinkResp 0x00008#18 :: [] ∧ s.cutOffWrites = 0 + 1 ∧
        s.txSt = .waitSink) :=
  ⟨rfl, ⟨_, rfl, rfl⟩, ⟨_, rfl, rfl⟩, rfl, ⟨.inr rfl, .inl rfl⟩, rfl, rfl, rfl⟩
/-- A word said to be stale where no write was cut off is taken like any other. -/
theorem witness_StepRunsTheDecodedInstruction_unowed :
    Takes (withScript (sending 1 frameA) [.staleSinkResp 0x00008#18]) (.sinkResp 0x00008#18) (sending 1 frameA) :=
  .unowed _ [] rfl ⟨.inr rfl, .inl rfl⟩ rfl rfl
theorem witness_OnlyResetRunsBeforeTheFirstReset :
    (let s := withScript { State.reset with resetDone := false } [.port (.rxReq 4)];
      s.resetDone = false ∧ s.script.head? ≠ some (.port .rst)) ∧
    (let s := withScript { State.reset with resetDone := false } [.port .rst];
      s.resetDone = false ∧ s.script = .port .rst :: []) := by decide
theorem witness_OnlyPayloadStoresChangeMemory :
    ∃ t, exec (.rxPayStore 0x40) { busy with mem := [(0, 0x11)] } = .next t ∧
      t.mem.read 0 ≠ Memory.read [(0, 0x11)] 0 := ⟨_, rfl, by decide⟩
theorem witness_FrameInFlightIsASnapshot :
    (∃ t, exec (.rxPayStore 0x41) busy = .next t ∧ isReceiveOp (.rxPayStore 0x41) = true) ∧
    (∃ t, runEvent (.hostWrite 5 0x42) { busy with rxArmed := false } = .next t) ∧
    isHostAction (.hostWrite 5 0x42) = true := ⟨⟨_, rfl, rfl⟩, ⟨_, rfl⟩, rfl⟩
/-- A capacity of one byte more than the buffer. -/
theorem witness_TooSmallABufferIsRefused :
    (let s := { State.reset with rxBufSize := 4 };
      s.rxArmed = false ∧ s.rxBufSize < (5 : Half).toNat) ∧
    (let s := { rxAt .payload 5 4 0xAA 0 5 with rxBufSize := 4 };
      s.rxArmed = true ∧ s.rxSt = .payload ∧ s.rxIdx.toNat < s.rxCap.toNat ∧ s.rxBufSize < s.rxCap.toNat) := by decide
/-- Clause 1: a `txmem` over the frame in flight that goes through. Clause 2: the last payload byte of two, in flight
and held. Clause 3: the same where the buffer lies over the payload memory. Clause 4: the byte that is there, and a
list of the largest length. -/
theorem witness_PayloadDutyIsChecked :
    (isHostAction (.txMem [0x41]) = true ∧ (∃ t, runEvent (.txMem [0x41]) busy = .next t) ∧ busy.onDuty 0) ∧
    (let s := { sending 2 [] with mem := [(65537, 0x41)] };
      1 < ([0x00, 0x42] : List Byte).length ∧ s.onDuty 1 ∧ s.races (s.txBase + 1) = false ∧
        ([0x00, 0x42] : List Byte)[1] ≠ s.mem.read (s.txBase + 1)) ∧
    (let s := { State.reset with txReqs := [0x10002#17], rxBase := 65536, mem := [(65537, 0x41)] };
      (1 : Half).toNat < s.rxBufSize ∧ s.onDuty 1 ∧ s.rxAddr 1 = s.txBase + 1 ∧ s.rxArmed = false ∧
        (0x42 : Byte) ≠ s.mem.read (s.txBase + 1)) ∧
    ((∀ k, k < 1 → busy.races (busy.txBase + k) = false) ∧
      (∀ k (hk : k < ([0x41] : List Byte).length), busy.onDuty k →
        ([0x41] : List Byte)[k] = busy.mem.read (busy.txBase + k))) ∧
    ((∀ k, k < 65535 → State.reset.races (State.reset.txBase + k) = false) ∧ ∀ k, ¬ State.reset.onDuty k) :=
  ⟨⟨rfl, ⟨_, rfl⟩, .inl ⟨rfl, by decide⟩⟩, ⟨by decide, .inl ⟨rfl, by decide⟩, rfl, by decide⟩,
    ⟨by decide, .inr ⟨0x10002#17, by simp, by decide, by decide⟩, rfl, rfl, by decide⟩,
    ⟨by decide, fun k hk _ => by
      obtain rfl : k = 0 := by simpa using hk
      rfl⟩,
    fun _ _ => rfl, State.not_onDuty rfl rfl⟩
/-- The last index of the buffer and the first beyond it, disarmed and armed, with nothing under the duty. -/
theorem witness_HostAccessesToTheReceiveBuffer :
    ∀ s ∈ [{ State.reset with rxBufSize := 4 }, { rxAt .waitStart 0 0 0 0 4 with rxBufSize := 4 }],
      (3 : Half).toNat < s.rxBufSize ∧ s.rxBufSize ≤ (4 : Half).toNat ∧ s.txSt ≠ .waitSink ∧ s.txReqs = [] := by decide
theorem witness_HostAccessesToTheReceiveBuffer_newRequest :
    ∃ t, exec (.rxReq 4) State.reset = .next t := ⟨_, rfl⟩
/-- A request is answered where nothing was pending; the host takes what is pending; nothing is given or taken. -/
theorem witness_ResponsesStayUntilTaken :
    (withScript busy [.port (.src 0x100)]).Inv ∧
    (∃ t, step (withScript busy [.port (.src 0x100)]) = .next t ∧ t.rxPending = some 0x10000#18) ∧
    (∀ u, ¬ Takes (withScript busy [.port (.src 0x100)]) .rst u) := by
  refine ⟨scripted_inv _,
    ⟨_, rfl, rfl⟩, fun u h => ?_⟩
  cases h with
  | reset es _ hs => simp [withScript] at hs
  | script _ _ _ _ hw _ _ => exact hw rfl
theorem witness_EveryStepKeepsInvariant :
    (withScript busy [.port (.src 0x041)]).Inv ∧ ∃ t, step (withScript busy [.port (.src 0x041)]) = .next t :=
  ⟨scripted_inv _, _, rfl⟩
theorem witness_CapacityIsFixedWhileArmed :
    ∃ t, step (withScript busy [.port (.rxReq 8)]) = .next t ∧ busy.resetDone = true ∧ busy.rxArmed = true ∧
      t.rxArmed = true := ⟨_, rfl, rfl, rfl, rfl⟩
/-- An accepted frame, an I/O error and a reset. -/
theorem witness_ARequestEndsInThreeWays :
    ∀ w ∈ [PortWord.src 0x0FE, PortWord.src 0x100, PortWord.rst],
      next? (step (withScript (rxAt .stop 1 1 0xFE 0x43 4) [.port w])) (fun t => !t.rxArmed) = true := by decide
theorem witness_EnginesLeaveEachOtherAlone :
    (isReceiveOp (.rxPayStore 0x41) = true ∧ ∃ t, exec (.rxPayStore 0x41) busy = .next t) ∧
    (isTransmitOp (.txSinkErr 0) = true ∧ ∃ t, exec (.txSinkErr 0) busy = .next t) :=
  ⟨⟨rfl, _, rfl⟩, rfl, _, rfl⟩
/-- A payload store and a send whose one byte lies elsewhere. -/
theorem witness_EnginesCommute :
    let s := { busy with txSt := .idle, txLen := 0, txFrame := [] }
    isReceiveOp (.rxPayStore 0x41) = true ∧ isTransmitOp (.txReqSend true 1) = true ∧
    (∃ t, exec (.rxPayStore 0x41) s = .next t) ∧ (∃ u, exec (.txReqSend true 1) s = .next u) ∧
    (∀ off, off < (1 : Half).toNat → s.txBase + off ≠ s.rxAddr s.rxIdx) :=
  ⟨rfl, rfl, ⟨_, rfl⟩, ⟨_, rfl⟩, by
    intro off _ h
    have h' : 65536 + off = 0 := h
    omega⟩
theorem witness_ParametersNeverChange : ∃ t, step (withScript busy [.port (.src 0x041)]) = .next t := ⟨_, rfl⟩
theorem witness_ReservedStatusesAreNeverProduced :
    ∃ t, step (withScript busy [.port (.src 0x100)]) = .next t ∧ t.rxResps ≠ busy.rxResps := ⟨_, rfl, by decide⟩
theorem witness_OneRequestOneAnswer :
    ∀ i ∈ [Instr.txSinkOk 8, Instr.txSinkShort 5, Instr.txSinkErr 0],
      isTransmitOp i = true ∧ next? (exec i (sending 1 frameA)) (fun _ => true) = true := by decide
theorem witness_OneRequestOneAnswer_idle :
    ∀ i ∈ [Instr.txReqSend false 0, Instr.txReqNopay 3, Instr.txSinkStray false 7],
      isTransmitOp i = true ∧ next? (exec i State.reset) (fun _ => true) = true := by decide +kernel
theorem witness_OneRequestOneAnswer_tooBig :
    next? (exec (.txReqToobig true 58) { State.reset with txFrameMax := 64 }) (fun _ => true) = true := by decide
/-- (a) and (c): an armed engine, and one in WAIT_SINK; (b): a source that delivers 0x00 for ever; a stream. -/
theorem witness_RunsThatNeverEndAreAdmitted :
    (∀ s ∈ [rxAt .lenLow 0 0 0xE8 0 4, sending 1 frameA],
      s.resetDone = true ∧ s.script = [] ∧ s.endless = .stops ∧ ((s.rxArmed = true ∨ s.rxReqs = []) ∧
        (s.txSt = .waitSink ∨ s.txReqs = [])) ∧ (s.rxArmed = false ∨ s.source = [])) ∧
    (let s := { rxAt .waitStart 0 0 0 0 4 with endless := .repeats (deliver [0x00, 0xFE]) };
      s.resetDone = true ∧ s.noHeldReady ∧ s.rxArmed = true ∧ s.rxSt = .waitStart ∧ s.source = [] ∧ s.script = [] ∧
        s.endless = .repeats (deliver [0x00, 0xFE]) ∧ (0xFA : Byte) ∉ ([0x00, 0xFE] : List Byte)) ∧
    (let s := { State.reset with endless := .streams 0 };
      s.resetDone = true ∧ s.noHeldReady ∧ s.rxArmed = false ∧ s.script = [] ∧ s.endless = .streams 0) :=
  ⟨by decide, ⟨rfl, ⟨.inl rfl, .inr rfl⟩, rfl, rfl, rfl, rfl, rfl, by decide⟩, rfl, ⟨.inr rfl, .inr rfl⟩, rfl, rfl, rfl⟩
/-- A held request of each port, with the last response taken and with it pending. -/
theorem witness_HeldRequestsAreTakenNext :
    (let s := { State.reset with rxReqs := [8, 4] };
      s.resetDone = true ∧ s.rxArmed = false ∧ s.rxPending = none ∧ s.rxReqs = 8 :: [4] ∧ s.txReqs = [] ∧
        (8 : Half).toNat ≤ s.rxBufSize) ∧
    (let s := { State.reset with txReqs := [0x00003#17] };
      s.resetDone = true ∧ s.txSt = .idle ∧ s.txPending = none ∧ s.txReqs = 0x00003#17 :: [] ∧ s.rxReqs = []) ∧
    (let s := { State.reset with rxReqs := [8], rxPending := some 0x00001#18 };
      s.resetDone = true ∧ s.rxArmed = false ∧ s.rxPending ≠ none ∧ s.rxReqs ≠ [] ∧ s.txReqs = []) ∧
    (let s := { State.reset with txReqs := [0], txPending := some 0 };
      s.resetDone = true ∧ s.txSt = .idle ∧ s.txPending ≠ none ∧ s.txReqs ≠ [] ∧ s.rxReqs = []) := by decide
/-- The shortest frame at capacity 0, and a frame whose payload fills the capacity. -/
theorem witness_RoundTrip :
    ((listening 0 (buildFrame [])).Listening (buildFrame []) [] ∧
      ([] : List Byte).length ≤ (listening 0 (buildFrame [])).rxCap.toNat) ∧
    ((listening 1 (buildFrame [0x41])).Listening (buildFrame [0x41]) [] ∧
      ([0x41] : List Byte).length ≤ (listening 1 (buildFrame [0x41])).rxCap.toNat) :=
  ⟨⟨listening_meets _ _, by decide⟩, listening_meets _ _, by decide⟩
theorem witness_AcceptanceMeansAFrame :
    (listening 4 frameA).Listening frameA [] ∧
    next? (Sys2Proof.core.run frameA.length (listening 4 frameA)) (fun t => !t.rxArmed) = true ∧
    ∀ k < frameA.length, next? (Sys2Proof.core.run k (listening 4 frameA)) (fun u => u.rxArmed) = true :=
  ⟨listening_meets _ _, by decide +kernel, by decide +kernel⟩
theorem witness_FrameAfterNoiseIsReturned :
    (listening 4 ([0x00, 0x13, 0xFB, 0xFE] ++ frameA)).Listening ([0x00, 0x13, 0xFB, 0xFE] ++ frameA) [] ∧
    (0xFA : Byte) ∉ ([0x00, 0x13, 0xFB, 0xFE] : List Byte) ∧
    acceptable frameA (listening 4 ([0x00, 0x13, 0xFB, 0xFE] ++ frameA)).rxCap = true :=
  ⟨listening_meets _ _, by decide, by decide +kernel⟩
/-- V-RX-12b: a payload of one byte more than the capacity. -/
theorem witness_OversizeFrameIsRejectedLate :
    (listening 1 (buildFrame [0x41, 0x42])).Listening (buildFrame [0x41, 0x42]) [] ∧
    (listening 1 (buildFrame [0x41, 0x42])).rxCap.toNat < ([0x41, 0x42] : List Byte).length ∧
    ([0x41, 0x42] : List Byte).length ≤ 65535 :=
  ⟨listening_meets _ _, by decide, by decide⟩
theorem witness_StrayStartMarkerLosesTheFrame :
    (listening 4 (0xFA :: buildFrame [0x41])).Listening (0xFA :: buildFrame [0x41]) [] := listening_meets _ _

end Sys2Proof.Machine.Tests
end

section
/-! The parameters are fields of the state that no step writes (00_scope.md R6, 20_memory.md R63): each way of
updating the state keeps them, so each way that a step can go keeps them. -/

namespace Sys2Proof.Machine

/-- The parameters of a model: `TX_FRAME_MAX` (R6), the buffer's length (R51) and the placement of the memories (R63). -/
structure Params where
  txFrameMax : Nat
  rxBufSize : Nat
  rxBase : Nat
  txBase : Nat

/-- The parameters that a state holds. -/
def State.params (s : State) : Params := ⟨s.txFrameMax, s.rxBufSize, s.rxBase, s.txBase⟩

theorem State.params_eq_iff {s t : State} :
    t.params = s.params ↔
      t.txFrameMax = s.txFrameMax ∧ t.rxBufSize = s.rxBufSize ∧ t.rxBase = s.rxBase ∧ t.txBase = s.txBase := by
  simp [State.params]

/-! ### The operations -/

/-- An operation keeps the parameters where the state it answers has them. -/
theorem params_of_perform {i : Instr} {s t u : State} (h : perform i s (.next u) = .next t)
    (hu : u.params = s.params) : t.params = s.params := by
  obtain ⟨-, hut⟩ := perform_eq_next.mp h
  cases hut
  exact hu

/-- As `params_of_perform`, for an operation that asks for a large enough buffer. -/
theorem params_of_perform_withBuffer {i : Instr} {c : Half} {s t u : State}
    (h : perform i s (withBuffer c s (.next u)) = .next t) (hu : u.params = s.params) : t.params = s.params := by
  obtain ⟨-, hb⟩ := perform_eq_next.mp h
  obtain ⟨-, hut⟩ := withBuffer_eq_next.mp hb
  cases hut
  exact hu

theorem exec_reset (s : State) : exec .reset s = perform .reset s (.next s.applyReset) := rfl

/-- No operation writes a parameter. Only RX_REQ and RX_PAY_STORE read one of them to be allowed at all. -/
theorem exec_params {i : Instr} {s t : State} (h : exec i s = .next t) : t.params = s.params := by
  cases i
  case rxPayStore b => exact params_of_perform_withBuffer h rfl
  case rxReq c => exact params_of_perform_withBuffer h rfl
  case reset => exact params_of_perform ((exec_reset s).symm.trans h) rfl
  all_goals exact params_of_perform h rfl

/-! ### The ways a step can go -/

theorem State.wait_params (s : State) (w : PortWord) : (s.wait w).params = s.params := by
  cases w <;> rfl

theorem offer_params {w : PortWord} {s t : State} (h : offer w s = .next t) : t.params = s.params := by
  rcases offer_eq_next h with ⟨i, -, he⟩ | ⟨-, rfl⟩
  · exact exec_params he
  · exact s.wait_params w

/-- Taking a word away from where it is offered writes the queue or the script it came from. -/
theorem Takes.params_eq {s u : State} {w : PortWord} (h : Takes s w u) : u.params = s.params := by
  cases h <;> rfl

theorem runEvent_host_params {e : Event} {s t : State} (he : isHostAction e = true) (h : runEvent e s = .next t) :
    t.params = s.params := by
  obtain ⟨m, p, q, r, n, c, rfl, -⟩ := runEvent_host he h
  rfl

theorem State.goOn_params (s : State) : s.goOn.params = s.params := by
  unfold State.goOn
  split <;> rfl

/-- No step writes a parameter, whichever way it goes. -/
theorem step_params {s t : State} (h : step s = .next t) : t.params = s.params := by
  cases step_eq_next h with
  | word w u ht ho => exact (offer_params ho).trans ht.params_eq
  | takesRx hr ha hp ht => exact ht ▸ rfl
  | takesTx hr hi hp ht => exact ht ▸ rfl
  | joins w es hr hs ht => exact ht ▸ rfl
  | host e es hr he hs ht => exact (runEvent_host_params he ht).trans rfl
  | idleTurn es hr hs ht => exact ht ▸ rfl
  | stale w es n hr hs hc ht => exact ht ▸ rfl
  | quiet hr hs ht => exact ht ▸ s.goOn_params

/-- Settles O51: `step_params`, field by field. -/
theorem parametersNeverChange : Obligations.ParametersNeverChange :=
  fun _ _ h => State.params_eq_iff.mp (step_params h)

end Sys2Proof.Machine
end

section
/-! Lengths and their two bytes, the CRC of a grown sequence, and the frame that `build_frame` makes
(30_encoding.md R72, R76; 40_crc8.md R100 to R105; 42_tx_framer.md R173). -/

namespace Sys2Proof.Machine

/-! ### The two bytes of a length (R72) -/

@[simp] theorem highByte_halfOf (hi lo : Byte) : highByte (halfOf hi lo) = hi := by
  unfold highByte halfOf
  ext i h
  simp [h, show 8 + i < 16 by omega]

@[simp] theorem lowByte_halfOf (hi lo : Byte) : lowByte (halfOf hi lo) = lo := by
  unfold lowByte halfOf
  ext i h
  simp [h, show i < 16 by omega]

@[simp] theorem halfOf_highByte_lowByte (v : Half) : halfOf (highByte v) (lowByte v) = v := by
  unfold highByte lowByte halfOf
  ext i h
  by_cases h8 : i < 8
  · simp [h8, h]
  · simp [h8, h, show i - 8 < 8 by omega, show 8 + (i - 8) = i by omega]

/-! ### The CRC -/

/-- One byte more is one update more (R102). -/
theorem crc8Block_concat (l : List Byte) (b c : Byte) : crc8Block (l ++ [b]) c = crc8Update (crc8Block l c) b := by
  simp [crc8Block]

/-- A register folded into itself vanishes: the zero residue of R105. -/
@[simp] theorem crc8Update_self (c : Byte) : crc8Update c c = 0 := by
  have shift_zero : crc8Shift 0#8 = 0#8 := by decide
  simp [crc8Update, shift_zero]

theorem crc8Block_framePrefix (len : Half) : crc8Block (framePrefix len) = crc8Update 0 Config.dataStartMarker := by
  have split_last :
      framePrefix len = (frameHeader len ++ [crc8Block (frameHeader len)]) ++ [Config.dataStartMarker] := by
    simp [framePrefix]
  rw [split_last, crc8Block_concat, crc8Block_concat, crc8Update_self]

/-- The full CRC over the four header bytes is zero where the header CRC matched (41_rx_framer.md R127). -/
theorem crc8Block_header_crc (len : Half) : crc8Block (frameHeader len ++ [crc8Block (frameHeader len)]) = 0 := by
  rw [crc8Block_concat, crc8Update_self]

/-! ### The built frame -/

/-- The built frame, byte by byte around its payload. -/
theorem buildFrame_eq (p : List Byte) :
    buildFrame p =
      Config.startMarker :: lowByte (BitVec.ofNat 16 p.length) :: highByte (BitVec.ofNat 16 p.length) ::
        crc8Block (frameHeader (BitVec.ofNat 16 p.length)) :: Config.dataStartMarker ::
          (p ++ [crc8Block (framePrefix (BitVec.ofNat 16 p.length) ++ p), Config.stopMarker]) := by
  simp [buildFrame, framePrefix, frameHeader]

/-- The built frame declares the length of its payload, at 16 bits. -/
@[simp] theorem declaredLen_buildFrame (p : List Byte) : declaredLen (buildFrame p) = BitVec.ofNat 16 p.length := by
  simp [declaredLen, buildFrame_eq]

/-- The built frame meets the seven conditions of R76, for every payload that a 16-bit length can declare. -/
theorem isFrame_buildFrame {p : List Byte} (h : p.length ≤ 65535) : isFrame (buildFrame p) = true := by
  have hn : (BitVec.ofNat 16 p.length).toNat = p.length := by simp; omega
  have hcrc : (buildFrame p).getD (5 + p.length) 0 = crc8Block ((buildFrame p).take (5 + p.length)) := by
    simp [buildFrame_eq, framePrefix, frameHeader, Nat.add_comm 5]
  have hstop : (buildFrame p).getD (6 + p.length) 0 = Config.stopMarker := by
    simp [buildFrame_eq, Nat.add_comm 6]
  simp only [isFrame, declaredLen_buildFrame, hn, hcrc, hstop]
  simp [buildFrame_eq, frameHeader]

end Sys2Proof.Machine
end

section
/-! What an operation of one engine can do: each answers one of a few moves of its engine (41_rx_framer.md,
42_tx_framer.md). O49 and the invariant are read off the moves. -/

namespace Sys2Proof.Machine

/-! ### What an operation that ran tells -/

theorem eq_of_perform {i : Instr} {s t u : State} (h : perform i s (.next u) = .next t) : t = u := by
  obtain ⟨-, hut⟩ := perform_eq_next.mp h
  cases hut
  rfl

theorem le_and_eq_of_perform_withBuffer {i : Instr} {c : Half} {s t u : State}
    (h : perform i s (withBuffer c s (.next u)) = .next t) : c.toNat ≤ s.rxBufSize ∧ t = u := by
  obtain ⟨-, hb⟩ := perform_eq_next.mp h
  obtain ⟨hc, hut⟩ := withBuffer_eq_next.mp hb
  cases hut
  exact ⟨hc, rfl⟩

@[simp] theorem rxIn_eq_true {k : Ctx} {st : RxSt} : rxIn k st = true ↔ k.rxArmed = true ∧ k.rxSt = st := by
  simp [rxIn]

/-! ### The moves of the receive engine -/

/-- The ways in which an operation of the receive engine can change the state. -/
inductive RxMove (i : Instr) (s t : State) : Prop where
  /-- RX_REQ (R120). -/
  | arm (c : Half) (hi : i = .rxReq c) (ha : s.rxArmed = false) (hc : c.toNat ≤ s.rxBufSize)
      (ht : t = { s.abandon with rxCap := c, rxArmed := true, raced := [] })
  /-- The request ends with a response (R139, R141). -/
  | finish (x : RxStatus) (n : Half) (ha : s.rxArmed = true) (ht : t = s.endRx x n)
  /-- A framing error (R121). -/
  | giveUp (ha : s.rxArmed = true) (ht : t = s.abandon)
  /-- A byte outside every candidate (R124). -/
  | skip (ha : s.rxArmed = true) (ht : t = s)
  /-- The start marker (R123). -/
  | start (ha : s.rxArmed = true)
      (ht : t = { s with
        rxSt := .lenLow, rxHcrc := crc8Update Config.crcInit Config.startMarker, rxLen := 0, rxIdx := 0, rxFcrc := 0 })
  /-- The low length byte (R125). -/
  | lenLow (b : Byte) (ha : s.rxArmed = true) (hst : s.rxSt = .lenLow)
      (ht : t = { s with
        rxLen := halfOf (highByte s.rxLen) b, rxHcrc := crc8Update s.rxHcrc b, rxSt := .lenHigh })
  /-- The high length byte (R126). -/
  | lenHigh (b : Byte) (ha : s.rxArmed = true) (hst : s.rxSt = .lenHigh)
      (ht : t = { s with
        rxLen := halfOf b (lowByte s.rxLen), rxHcrc := crc8Update s.rxHcrc b, rxSt := .hdrCrc })
  /-- The header CRC matches (R127). -/
  | header (ha : s.rxArmed = true) (hst : s.rxSt = .hdrCrc)
      (ht : t = { s with rxFcrc := crc8Block (frameHeader s.rxLen ++ [s.rxHcrc]), rxSt := .dataStart })
  /-- The data-start marker before a payload (R129). -/
  | openPayload (ha : s.rxArmed = true) (hst : s.rxSt = .dataStart) (hl : s.rxLen ≠ 0)
      (ht : t = { s with
        rxFcrc := crc8Update s.rxFcrc Config.dataStartMarker, rxIdx := 0, rxSt := .payload })
  /-- The data-start marker before an empty payload (R130). -/
  | openEmpty (ha : s.rxArmed = true) (hst : s.rxSt = .dataStart) (hl : s.rxLen = 0)
      (ht : t = { s with rxFcrc := crc8Update s.rxFcrc Config.dataStartMarker, rxSt := .fullCrc })
  /-- A payload byte within capacity (R132). -/
  | store (b : Byte) (ha : s.rxArmed = true) (hst : s.rxSt = .payload) (hc : s.rxIdx < s.rxCap)
      (ht : t = (s.rxBufWrite s.rxIdx b).countPayload b)
  /-- A payload byte beyond capacity (R133). -/
  | drop (b : Byte) (ha : s.rxArmed = true) (hst : s.rxSt = .payload) (hc : ¬ s.rxIdx < s.rxCap)
      (ht : t = s.countPayload b)
  /-- The full CRC matches a frame within capacity (R136). -/
  | checked (ha : s.rxArmed = true) (hst : s.rxSt = .fullCrc) (hl : s.rxLen ≤ s.rxCap)
      (ht : t = { s with rxSt := .stop })

/-- Every operation of the receive engine is one of its moves. -/
theorem exec_rxMove {i : Instr} {s t : State} (hi : isReceiveOp i = true) (h : exec i s = .next t) :
    RxMove i s t := by
  have hsel := selects_of_exec_eq_next h
  cases i <;> simp [isReceiveOp] at hi <;>
    simp only [selects, Instr.wellFormed, crcOk, lenOk, idxWithin, rxIn_eq_true, Bool.and_eq_true, Bool.not_eq_true',
      decide_eq_true_eq, decide_eq_false_iff_not, beq_iff_eq, bne_iff_ne, true_and, and_assoc] at hsel
  case rxReq c =>
    obtain ⟨hc, ht⟩ := le_and_eq_of_perform_withBuffer h
    exact .arm c rfl hsel hc ht
  case rxIoerr b => exact .finish _ _ hsel (eq_of_perform h)
  case rxStopOk => exact .finish _ _ hsel.1 (eq_of_perform h)
  case rxWsSkip b => exact .skip hsel.2.1 (eq_of_perform h)
  case rxWsStart => exact .start hsel.1 (eq_of_perform h)
  case rxLenLow b => exact .lenLow b hsel.1 hsel.2 (eq_of_perform h)
  case rxLenHigh b => exact .lenHigh b hsel.1 hsel.2 (eq_of_perform h)
  case rxHdrOk b =>
    obtain ⟨ha, hst, rfl⟩ := hsel
    exact .header ha hst (eq_of_perform h)
  case rxDsOk =>
    obtain ⟨ha, hst, hl⟩ := hsel
    exact .openPayload ha hst hl (eq_of_perform h)
  case rxDsOk0 =>
    obtain ⟨ha, hst, hl⟩ := hsel
    exact .openEmpty ha hst hl (eq_of_perform h)
  case rxPayStore b =>
    obtain ⟨ha, hst, hc⟩ := hsel
    exact .store b ha hst hc (le_and_eq_of_perform_withBuffer h).2
  case rxPayDrop b =>
    obtain ⟨ha, hst, hc⟩ := hsel
    exact .drop b ha hst hc (eq_of_perform h)
  case rxFcOk b =>
    obtain ⟨ha, hst, -, hl⟩ := hsel
    exact .checked ha hst hl (eq_of_perform h)
  case rxHdrBad b => exact .giveUp hsel.1 (eq_of_perform h)
  case rxFcBadcrc b => exact .giveUp hsel.1 (eq_of_perform h)
  case rxFcBadlen b => exact .giveUp hsel.1 (eq_of_perform h)
  case rxDsBad b => exact .giveUp hsel.2.1 (eq_of_perform h)
  case rxStopBad b => exact .giveUp hsel.2.1 (eq_of_perform h)

/-! ### The moves of the transmit engine -/

/-- The ways in which an operation of the transmit engine can change the state. -/
inductive TxMove (i : Instr) (s t : State) : Prop where
  /-- The request is answered at once (R171, R172). -/
  | respond (x : TxStatus) (hst : s.txSt = .idle) (ht : t = s.respondTx x)
  /-- TX_REQ_SEND (R174). -/
  | send (p : Bool) (len : Half) (hi : i = .txReqSend p len) (hfit : frameSize len ≤ s.txFrameMax)
      (ht : t = { s with
        txLen := len
        txFrame := buildFrame (s.readPayload len)
        sinkWrites := s.sinkWrites ++ [buildFrame (s.readPayload len)]
        txSt := .waitSink })
  /-- The sink answers for the frame in flight (R175 to R177). -/
  | finish (x : TxStatus) (reached n : Nat) (ht : t = { s.endTx x reached with free := n })
  /-- A sink answer in IDLE (R178). -/
  | stray (ht : t = s)

/-- Every operation of the transmit engine is one of its moves. -/
theorem exec_txMove {i : Instr} {s t : State} (hi : isTransmitOp i = true) (h : exec i s = .next t) :
    TxMove i s t := by
  have hsel := selects_of_exec_eq_next h
  cases i <;> simp [isTransmitOp] at hi <;>
    simp only [selects, Instr.wellFormed, frameTooBig, Bool.and_eq_true, Bool.not_eq_true', decide_eq_false_iff_not,
      beq_iff_eq, not_lt] at hsel
  case txReqNopay len => exact .respond _ hsel.2 (eq_of_perform h)
  case txReqToobig p len => exact .respond _ hsel.2.1 (eq_of_perform h)
  case txReqSend p len => exact .send p len rfl hsel.2.2 (eq_of_perform h)
  case txSinkOk n => exact .finish _ _ s.free (eq_of_perform h)
  case txSinkShort n => exact .finish _ _ s.free (eq_of_perform h)
  case txSinkErr x => exact .finish _ _ _ (eq_of_perform h)
  case txSinkStray e n => exact .stray (eq_of_perform h)

/-- Settles O49: no move of one engine writes a field of the other. -/
theorem enginesLeaveEachOtherAlone : Obligations.EnginesLeaveEachOtherAlone := by
  refine ⟨fun i s t hi h => ?_, fun i s t hi h => ?_⟩
  · cases exec_rxMove hi h <;> subst_vars <;> exact ⟨rfl, rfl, rfl, rfl, rfl, rfl, rfl, rfl, rfl, rfl⟩
  · cases exec_txMove hi h <;> subst_vars <;> exact ⟨rfl, rfl, rfl, rfl, rfl, rfl, rfl, rfl, rfl, rfl, rfl, rfl, rfl, rfl⟩

end Sys2Proof.Machine
end

section
/-! The invariant (10_state.md R28, R39): one half for each engine. An engine's own moves keep its half, and nothing
else that a step does writes the registers that the half reads. -/

namespace Sys2Proof.Machine

/-! ### The invariant, engine by engine -/

/-- What the invariant says of the receive engine. -/
structure State.RxInv (s : State) : Prop where
  row : s.rxRow
  disarmed : s.rxArmed = false → s.rxSt = .waitStart
  buffer : s.rxArmed = true → s.rxCap.toNat ≤ s.rxBufSize
  taken : s.rxArmed = true → s.rxPending = none

/-- What the invariant says of the transmit engine. -/
structure State.TxInv (s : State) : Prop where
  row : s.txRow
  taken : s.txSt = .waitSink → s.txPending = none

theorem State.inv_iff {s : State} : s.Inv ↔ s.resetDone = true ∧ s.mem.wf ∧ s.RxInv ∧ s.TxInv :=
  ⟨fun h => ⟨h.afterReset, h.memWf, ⟨h.rxRow, h.disarmed, h.buffer, h.taken.1⟩, h.txRow, h.taken.2⟩,
    fun ⟨hr, hm, hrx, htx⟩ =>
      ⟨hr, hm, hrx.row, hrx.disarmed, hrx.buffer, htx.row, hrx.taken, htx.taken⟩⟩

/-- The receive fields that the invariant reads, but for the pending response. -/
structure RxPart where
  rxArmed : Bool
  rxSt : RxSt
  rxLen : Half
  rxIdx : Half
  rxHcrc : Byte
  rxFcrc : Byte
  rxCap : Half
  rxBufSize : Nat
  rxBufWrs : List (Half × Byte)

def State.rxPart (s : State) : RxPart :=
  ⟨s.rxArmed, s.rxSt, s.rxLen, s.rxIdx, s.rxHcrc, s.rxFcrc, s.rxCap, s.rxBufSize, s.rxBufWrs⟩

/-- The transmit fields that the invariant reads, but for the pending response. -/
structure TxPart where
  txSt : TxSt
  txLen : Half
  txFrame : List Byte
  txFrameMax : Nat
  sinkWrites : List (List Byte)

def State.txPart (s : State) : TxPart := ⟨s.txSt, s.txLen, s.txFrame, s.txFrameMax, s.sinkWrites⟩

theorem State.RxInv.of_rxPart {s t : State} (h : s.RxInv) (hf : t.rxPart = s.rxPart)
    (hp : t.rxPending = s.rxPending ∨ t.rxPending = none) : t.RxInv := by
  simp only [State.rxPart, RxPart.mk.injEq] at hf
  obtain ⟨harm, hst, hlen, hidx, hhcrc, hfcrc, hcap, hsize, hwrs⟩ := hf
  refine ⟨?_, ?_, ?_, fun ha => ?_⟩
  · simpa only [State.rxRow, State.hasPayload, hst, hlen, hidx, hhcrc, hfcrc, hcap, hwrs] using h.row
  · simpa only [harm, hst] using h.disarmed
  · simpa only [harm, hcap, hsize] using h.buffer
  · exact hp.elim (·.trans (h.taken (harm ▸ ha))) id

theorem State.TxInv.of_txPart {s t : State} (h : s.TxInv) (hf : t.txPart = s.txPart)
    (hp : t.txPending = s.txPending ∨ t.txPending = none) : t.TxInv := by
  simp only [State.txPart, TxPart.mk.injEq] at hf
  obtain ⟨hst, hlen, hframe, hmax, hwrs⟩ := hf
  refine ⟨?_, fun hw => ?_⟩
  · simpa only [State.txRow, hst, hlen, hframe, hmax, hwrs] using h.row
  · exact hp.elim (·.trans (h.taken (hst ▸ hw))) id

/-- What a step writes besides the fields that the invariant reads does not matter; it may take a pending response. -/
theorem State.Inv.of_parts {s t : State} (h : s.Inv) (hr : t.resetDone = s.resetDone) (hm : t.mem.wf)
    (hrx : t.rxPart = s.rxPart) (htx : t.txPart = s.txPart)
    (hp : t.rxPending = s.rxPending ∨ t.rxPending = none)
    (hq : t.txPending = s.txPending ∨ t.txPending = none) : t.Inv := by
  obtain ⟨hdone, -, hrxInv, htxInv⟩ := State.inv_iff.mp h
  exact State.inv_iff.mpr ⟨hr.trans hdone, hm, hrxInv.of_rxPart hrx hp, htxInv.of_txPart htx hq⟩

/-! ### Cleared engines -/

/-- A disarmed engine whose candidate is cleared meets its half (R39). -/
theorem State.rxInv_of_cleared {s : State} (ha : s.rxArmed = false) (hst : s.rxSt = .waitStart)
    (hlen : s.rxLen = 0) (hidx : s.rxIdx = 0) (hhcrc : s.rxHcrc = 0) (hfcrc : s.rxFcrc = 0) : s.RxInv := by
  refine ⟨?_, fun _ => hst, ?_, ?_⟩
  · simp [State.rxRow, hst, hlen, hidx, hhcrc, hfcrc]
  all_goals simp [ha]

theorem State.txInv_of_cleared {s : State} (hst : s.txSt = .idle) (hlen : s.txLen = 0) (hframe : s.txFrame = []) :
    s.TxInv := by
  refine ⟨?_, ?_⟩
  · simp [State.txRow, hst, hlen, hframe]
  · simp [hst]

/-- RESET brings every state with a canonical memory into the invariant. -/
theorem State.applyReset_inv {s : State} (hm : s.mem.wf) : s.applyReset.Inv :=
  State.inv_iff.mpr ⟨rfl, hm, State.rxInv_of_cleared rfl rfl rfl rfl rfl rfl, State.txInv_of_cleared rfl rfl rfl⟩

/-- Settles O45: both engines are cleared and memory is empty. -/
theorem resetStateMeetsInvariant : Obligations.ResetStateMeetsInvariant :=
  State.inv_iff.mpr
    ⟨rfl, State.reset_mem_wf, State.rxInv_of_cleared rfl rfl rfl rfl rfl rfl, State.txInv_of_cleared rfl rfl rfl⟩

/-! ### The payload that a candidate has delivered -/

/-- A payload byte makes a buffer write where its index is below the capacity. -/
theorem payloadWrites_concat (cap : Half) (p : List Byte) (b : Byte) :
    payloadWrites cap (p ++ [b]) =
      payloadWrites cap p ++ if p.length < cap.toNat then [(BitVec.ofNat 16 p.length, b)] else [] := by
  have old : ∀ i ∈ List.range (min p.length cap.toNat),
      (BitVec.ofNat 16 i, (p ++ [b]).getD i 0) = (BitVec.ofNat 16 i, p.getD i 0) := by
    intro i hi
    have hlt : i < p.length := by simp at hi; omega
    simp [List.getElem?_append_left hlt]
  unfold payloadWrites
  by_cases hc : p.length < cap.toNat
  · have hmin : min (p ++ [b]).length cap.toNat = min p.length cap.toNat + 1 := by simp; omega
    rw [hmin, List.range_succ, List.map_append, List.map_congr_left old, if_pos hc]
    simp [Nat.min_eq_left hc.le]
  · have hmin : min (p ++ [b]).length cap.toNat = min p.length cap.toNat := by simp; omega
    rw [hmin, List.map_congr_left old, if_neg hc, List.append_nil]

/-- A further payload byte: `t` counts it, folds it, and makes its buffer write where it is within capacity. -/
theorem State.hasPayload.concat {s t : State} {p : List Byte} {b : Byte} (h : s.hasPayload p)
    (hlt : s.rxIdx < s.rxLen) (hidx : t.rxIdx = s.rxIdx + 1) (hlen : t.rxLen = s.rxLen)
    (hfcrc : t.rxFcrc = crc8Update s.rxFcrc b) (hcap : t.rxCap = s.rxCap)
    (hwrs : t.rxBufWrs = s.rxBufWrs ++ if s.rxIdx < s.rxCap then [(s.rxIdx, b)] else []) :
    t.hasPayload (p ++ [b]) := by
  obtain ⟨hp, hcrc, before, hwrites⟩ := h
  have hofNat : BitVec.ofNat 16 p.length = s.rxIdx := by simp [hp]
  refine ⟨?_, ?_, before, ?_⟩
  · rw [hidx, List.length_append, List.length_singleton, hp]
    bv_omega
  · rw [hfcrc, hlen, hcrc, ← List.append_assoc, crc8Block_concat]
  · rw [payloadWrites_concat, hcap, hofNat, hp, hwrs, ← List.append_assoc, hwrites]
    simp only [BitVec.lt_def]

/-- A state that has just counted a byte of a payload is in its row: on to the next byte, or to the full CRC (R134). -/
theorem rxRow_of_counted {s t : State} {p : List Byte} (hlt : s.rxIdx < s.rxLen) (hst : s.rxSt = .payload)
    (hidx : t.rxIdx = s.rxIdx + 1) (hlen : t.rxLen = s.rxLen)
    (hnext : t.rxSt = if lastPayloadByte s.rxIdx s.rxLen then .fullCrc else s.rxSt)
    (hhcrc : t.rxHcrc = crc8Block (frameHeader t.rxLen)) (hp : t.hasPayload p) : t.rxRow := by
  by_cases hlast : s.rxIdx + 1 = s.rxLen
  · have hfull : t.rxSt = .fullCrc := hnext.trans (if_pos (beq_iff_eq.mpr hlast))
    simp only [State.rxRow, hfull]
    exact ⟨by rw [hidx, hlen, hlast], hhcrc, p, hp⟩
  · have hpay : t.rxSt = .payload := (hnext.trans (if_neg (hlast ∘ beq_iff_eq.mp))).trans hst
    simp only [State.rxRow, hpay]
    exact ⟨by rw [hidx, hlen]; bv_omega, hhcrc, p, hp⟩

/-! ### The moves of the receive engine -/

/-- The header CRC after the start marker (41_rx_framer.md R123). -/
theorem crc8Update_startMarker : crc8Update Config.crcInit Config.startMarker = 0xE8 := by decide

/-- Every move keeps the row of R28. -/
theorem RxMove.rxRow {i : Instr} {s t : State} (h : RxMove i s t) (hs : s.rxRow) : t.rxRow := by
  cases h with
  | arm c hi ha hc ht => subst ht; exact ⟨rfl, rfl, rfl, rfl⟩
  | finish x n ha ht => subst ht; exact ⟨rfl, rfl, rfl, rfl⟩
  | giveUp ha ht => subst ht; exact ⟨rfl, rfl, rfl, rfl⟩
  | skip ha ht => exact ht ▸ hs
  | start ha ht => subst ht; exact ⟨rfl, rfl, crc8Update_startMarker, rfl⟩
  | lenLow b ha hst ht =>
    subst ht
    simp only [State.rxRow, hst] at hs
    obtain ⟨hlen, hidx, hhcrc, hfcrc⟩ := hs
    refine ⟨?_, hidx, ?_, hfcrc⟩
    · simp only [highByte_halfOf, hlen]
      decide
    · rw [hhcrc, lowByte_halfOf, ← crc8Update_startMarker]
      rfl
  | lenHigh b ha hst ht =>
    subst ht
    simp only [State.rxRow, hst] at hs
    obtain ⟨-, hidx, hhcrc, hfcrc⟩ := hs
    refine ⟨hidx, ?_, hfcrc⟩
    simp [hhcrc, crc8Block, frameHeader, Config.startMarker]
  | header ha hst ht =>
    subst ht
    simp only [State.rxRow, hst] at hs
    obtain ⟨hidx, hhcrc, -⟩ := hs
    refine ⟨hidx, hhcrc, ?_⟩
    simp only [hhcrc, crc8Block_header_crc]
  | openPayload ha hst hl ht =>
    subst ht
    simp only [State.rxRow, hst] at hs
    obtain ⟨-, hhcrc, hfcrc⟩ := hs
    refine ⟨by simp only; bv_omega, hhcrc, [], rfl, ?_, List.nil_suffix⟩
    simp only [hfcrc, List.append_nil, crc8Block_framePrefix]
  | openEmpty ha hst hl ht =>
    subst ht
    simp only [State.rxRow, hst] at hs
    obtain ⟨hidx, hhcrc, hfcrc⟩ := hs
    refine ⟨hidx.trans hl.symm, hhcrc, [], by simp [hidx], ?_, List.nil_suffix⟩
    simp only [hfcrc, List.append_nil, crc8Block_framePrefix]
  | store b ha hst hc ht =>
    subst ht
    simp only [State.rxRow, hst] at hs
    obtain ⟨hlt, hhcrc, p, hp⟩ := hs
    exact rxRow_of_counted hlt hst rfl rfl rfl hhcrc (hp.concat hlt rfl rfl rfl rfl (by rw [if_pos hc]; rfl))
  | drop b ha hst hc ht =>
    subst ht
    simp only [State.rxRow, hst] at hs
    obtain ⟨hlt, hhcrc, p, hp⟩ := hs
    exact rxRow_of_counted hlt hst rfl rfl rfl hhcrc (hp.concat hlt rfl rfl rfl rfl (by rw [if_neg hc]; simp))
  | checked ha hst hl ht =>
    subst ht
    simp only [State.rxRow, hst] at hs
    obtain ⟨hidx, hhcrc, hp⟩ := hs
    exact ⟨hidx, hl, hhcrc, hp⟩

/-- A move within a request leaves the request as it is. -/
theorem State.RxInv.within {s t : State} (h : s.RxInv) (ha : s.rxArmed = true) (harm : t.rxArmed = s.rxArmed)
    (hcap : t.rxCap = s.rxCap) (hsize : t.rxBufSize = s.rxBufSize) (hpend : t.rxPending = s.rxPending)
    (hrow : t.rxRow) : t.RxInv where
  row := hrow
  disarmed hd := by simp [harm, ha] at hd
  buffer _ := by simpa only [hcap, hsize] using h.buffer ha
  taken _ := hpend.trans (h.taken ha)

/-- Every move keeps the receive half, where RX_REQ comes with no response pending (60_exceptions.md R207). -/
theorem RxMove.rxInv {i : Instr} {s t : State} (h : RxMove i s t) (hs : s.RxInv)
    (hp : ∀ c, i = .rxReq c → s.rxPending = none) : t.RxInv := by
  have hrow := h.rxRow hs.row
  cases h with
  | arm c hi ha hc ht =>
    subst ht
    exact ⟨hrow, by simp, fun _ => hc, fun _ => hp c hi⟩
  | finish x n ha ht =>
    subst ht
    exact State.rxInv_of_cleared rfl rfl rfl rfl rfl rfl
  | _ =>
    subst_vars
    exact hs.within ‹_› rfl rfl rfl rfl hrow

theorem RxMove.mem_wf {i : Instr} {s t : State} (h : RxMove i s t) (hs : s.mem.wf) : t.mem.wf := by
  cases h with
  | store b ha hst hc ht =>
    subst ht
    exact Memory.wf_put hs _ _
  | _ =>
    subst_vars
    exact hs

theorem RxMove.keeps_tx {i : Instr} {s t : State} (h : RxMove i s t) :
    t.resetDone = s.resetDone ∧ t.txPart = s.txPart ∧ t.txPending = s.txPending := by
  cases h <;> subst_vars <;> exact ⟨rfl, rfl, rfl⟩

/-! ### The moves of the transmit engine -/

/-- Every move keeps the transmit half, where TX_REQ_SEND comes with no response pending (60_exceptions.md R207). -/
theorem TxMove.txInv {i : Instr} {s t : State} (h : TxMove i s t) (hs : s.TxInv)
    (hp : ∀ p len, i = .txReqSend p len → s.txPending = none) : t.TxInv := by
  cases h with
  | respond x hst ht =>
    have hrow := hs.row
    simp only [State.txRow, hst] at hrow
    subst ht
    exact State.txInv_of_cleared hst hrow.1 hrow.2
  | send p len hi hfit ht =>
    subst ht
    have hlen : (s.readPayload len).length ≤ 65535 := by
      rw [State.readPayload_length]
      omega
    exact ⟨⟨isFrame_buildFrame hlen, by simp, hfit, by simp⟩, fun _ => hp p len hi⟩
  | finish x reached n ht =>
    subst ht
    exact State.txInv_of_cleared rfl rfl rfl
  | stray ht => exact ht ▸ hs

theorem TxMove.keeps_rx {i : Instr} {s t : State} (h : TxMove i s t) :
    t.resetDone = s.resetDone ∧ t.mem = s.mem ∧ t.rxPart = s.rxPart ∧ t.rxPending = s.rxPending := by
  cases h <;> subst_vars <;> exact ⟨rfl, rfl, rfl, rfl⟩

/-! ### An operation -/

/-- An operation is one engine's or RESET. -/
theorem op_cases (i : Instr) : isReceiveOp i = true ∨ isTransmitOp i = true ∨ i = .reset := by
  cases i <;> simp [isReceiveOp, isTransmitOp]

/-- An operation of either engine, or RESET, keeps the invariant where no request begins with a response pending. -/
theorem State.Inv.of_exec {i : Instr} {s t : State} (hs : s.Inv) (h : exec i s = .next t)
    (hp : ∀ c, i = .rxReq c → s.rxPending = none) (hq : ∀ p len, i = .txReqSend p len → s.txPending = none) :
    t.Inv := by
  obtain ⟨hdone, hm, hrx, htx⟩ := State.inv_iff.mp hs
  rcases op_cases i with hi | hi | rfl
  · have move := exec_rxMove hi h
    obtain ⟨hr, hpart, hpend⟩ := move.keeps_tx
    exact State.inv_iff.mpr ⟨hr.trans hdone, move.mem_wf hm, move.rxInv hrx hp, htx.of_txPart hpart (.inl hpend)⟩
  · have move := exec_txMove hi h
    obtain ⟨hr, hmem, hpart, hpend⟩ := move.keeps_rx
    exact State.inv_iff.mpr ⟨hr.trans hdone, hmem ▸ hm, hrx.of_rxPart hpart (.inl hpend), move.txInv htx hq⟩
  · rw [eq_of_perform ((exec_reset s).symm.trans h)]
    exact State.applyReset_inv hm

/-! ### A request is taken only with no response pending (log 12) -/

/-- Only an `rx_req` word at a disarmed engine is RX_REQ. -/
theorem decode_eq_rxReq {k : Ctx} {w : PortWord} {c : Half} (h : decode k w = .ok (.rxReq c)) :
    (∃ x, w = .rxReq x) ∧ k.rxArmed = false := by
  cases w with
  | rst => simp [decode] at h
  | rxReq x => cases ha : k.rxArmed <;> simp [decode, ha] at h ⊢
  | src x => grind [decode, decodeSrc]
  | txReq x => grind [decode, decodeTxReq]
  | sinkResp x => grind [decode, decodeSinkResp]

/-- Only a `tx_req` word in IDLE is TX_REQ_SEND. -/
theorem decode_eq_txReqSend {k : Ctx} {w : PortWord} {p : Bool} {len : Half}
    (h : decode k w = .ok (.txReqSend p len)) : (∃ x, w = .txReq x) ∧ k.txSt = .idle := by
  cases w with
  | rst => simp [decode] at h
  | rxReq x => grind [decode]
  | src x => grind [decode, decodeSrc]
  | txReq x => cases hst : k.txSt <;> simp [decode, hst] at h ⊢
  | sinkResp x => grind [decode, decodeSinkResp]

/-- No response stands in the way of the word that a step is about. -/
theorem Takes.responseFirst_eq_none {s u : State} {w : PortWord} (h : Takes s w u) : responseFirst w u = none := by
  cases h with
  | heldRx w ws hr ha hp hq => simp [responseFirst, hp]
  | heldTx w ws hr ha hi hp hq => simp [responseFirst, hp]
  | script w es hr hN hw hq hp hs =>
    cases w with
    | rxReq c => simpa [responseFirst] using hp
    | txReq x => simpa [responseFirst] using hp
    | _ => rfl
  | _ => rfl

theorem rxPending_of_decode_rxReq {s : State} {w : PortWord} {c : Half} (hd : decode s.ctx w = .ok (.rxReq c))
    (hf : responseFirst w s = none) : s.rxPending = none := by
  obtain ⟨⟨x, rfl⟩, ha⟩ := decode_eq_rxReq hd
  simpa [responseFirst, show s.rxArmed = false from ha] using hf

theorem txPending_of_decode_txReqSend {s : State} {w : PortWord} {p : Bool} {len : Half}
    (hd : decode s.ctx w = .ok (.txReqSend p len)) (hf : responseFirst w s = none) : s.txPending = none := by
  obtain ⟨⟨x, rfl⟩, hi⟩ := decode_eq_txReqSend hd
  simpa [responseFirst, show s.txSt = .idle from hi] using hf

/-! ### The ways a step can go -/

theorem State.Inv.wait {s : State} (h : s.Inv) (w : PortWord) : (s.wait w).Inv := by
  cases w <;> exact h.of_parts rfl h.memWf rfl rfl (.inl rfl) (.inl rfl)

theorem State.Inv.of_offer {w : PortWord} {s t : State} (hs : s.Inv) (hf : responseFirst w s = none)
    (h : offer w s = .next t) : t.Inv := by
  rcases offer_eq_next h with ⟨i, hd, he⟩ | ⟨-, rfl⟩
  · refine hs.of_exec he (fun c hi => ?_) (fun p len hi => ?_)
    · exact rxPending_of_decode_rxReq (hi ▸ hd) hf
    · exact txPending_of_decode_txReqSend (hi ▸ hd) hf
  · exact hs.wait w

/-- Taking a word away from where it is offered writes the queue or the script it came from. -/
theorem State.Inv.of_takes {s u : State} {w : PortWord} (hs : s.Inv) (h : Takes s w u) : u.Inv := by
  cases h <;> exact hs.of_parts rfl hs.memWf rfl rfl (.inl rfl) (.inl rfl)

theorem State.Inv.of_host {e : Event} {s t : State} (hs : s.Inv) (he : isHostAction e = true)
    (h : runEvent e s = .next t) : t.Inv := by
  obtain ⟨m, p, q, r, n, c, rfl, hm, hp, hq⟩ := runEvent_host he h
  exact hs.of_parts rfl (hm hs.memWf) rfl rfl (hp.imp_right And.right) (hq.imp_right And.right)

theorem State.Inv.goOn {s : State} (h : s.Inv) : s.goOn.Inv := by
  unfold State.goOn
  split <;> exact h.of_parts rfl h.memWf rfl rfl (.inl rfl) (.inl rfl)

/-- Settles O46, along the ways a step can go: an offered word runs an operation, and nothing else writes a register. -/
theorem everyStepKeepsInvariant : Obligations.EveryStepKeepsInvariant := by
  intro s t hs h
  cases step_eq_next h with
  | word w u ht ho => exact (hs.of_takes ht).of_offer ht.responseFirst_eq_none ho
  | takesRx hr ha hp ht => exact ht ▸ hs.of_parts rfl hs.memWf rfl rfl (.inr rfl) (.inl rfl)
  | takesTx hr hi hp ht => exact ht ▸ hs.of_parts rfl hs.memWf rfl rfl (.inl rfl) (.inr rfl)
  | joins w es hr hs' ht => exact ht ▸ hs.of_parts rfl hs.memWf rfl rfl (.inl rfl) (.inl rfl)
  | host e es hr he hs' ht =>
    have hline : State.Inv { s with script := es } := hs.of_parts rfl hs.memWf rfl rfl (.inl rfl) (.inl rfl)
    exact hline.of_host he ht
  | idleTurn es hr hs' ht => exact ht ▸ hs.of_parts rfl hs.memWf rfl rfl (.inl rfl) (.inl rfl)
  | stale w es n hr hs' hc ht => exact ht ▸ hs.of_parts rfl hs.memWf rfl rfl (.inl rfl) (.inl rfl)
  | quiet hr hs' ht => exact ht ▸ hs.goOn

end Sys2Proof.Machine
end

section
/-! Who writes the two memories, and what the frame in flight owes to them (20_memory.md): the receive engine only by
RX_PAY_STORE (R52 to R54), the host by its own accesses, which race with an armed engine (R66, U4, U5). -/

namespace Sys2Proof.Machine

/-! ### What an operation does to memory -/

/-- An operation other than RX_PAY_STORE leaves memory as it is. -/
theorem exec_mem_of_ne_rxPayStore {i : Instr} {s t : State} (hi : ∀ b, i ≠ .rxPayStore b)
    (h : exec i s = .next t) : t.mem = s.mem := by
  cases i
  case rxPayStore b => exact absurd rfl (hi b)
  case rxReq c => exact (congrArg State.mem (le_and_eq_of_perform_withBuffer h).2).trans rfl
  case reset => exact (congrArg State.mem (eq_of_perform ((exec_reset s).symm.trans h))).trans rfl
  all_goals exact (congrArg State.mem (eq_of_perform h)).trans rfl

/-- RX_PAY_STORE runs in an armed engine at an index within capacity, and puts one byte, at that index (R52, R53). -/
theorem exec_rxPayStore_mem {b : Byte} {s t : State} (h : exec (.rxPayStore b) s = .next t) :
    s.rxArmed = true ∧ s.rxIdx < s.rxCap ∧ t.mem = s.mem.put (s.rxAddr s.rxIdx) (s.storedByte s.rxIdx b) := by
  have hsel := selects_of_exec_eq_next h
  simp only [selects, Instr.wellFormed, idxWithin, Bool.and_eq_true, rxIn_eq_true, decide_eq_true_eq, true_and,
    and_assoc] at hsel
  obtain ⟨harmed, -, hidx⟩ := hsel
  exact ⟨harmed, hidx, (congrArg State.mem (le_and_eq_of_perform_withBuffer h).2).trans rfl⟩

/-- Settles O39: memory changes only in RX_PAY_STORE, which puts one byte, and a put is read at its own address only. -/
theorem onlyPayloadStoresChangeMemory : Obligations.OnlyPayloadStoresChangeMemory := by
  intro i s t a h hne
  by_cases hi : ∃ b, i = .rxPayStore b
  · obtain ⟨b, rfl⟩ := hi
    obtain ⟨harmed, hidx, hmem⟩ := exec_rxPayStore_mem h
    have haddr : a = s.rxAddr s.rxIdx := by
      by_contra hother
      exact hne (by rw [hmem, Memory.read_put_other _ _ hother])
    exact ⟨⟨b, rfl⟩, haddr, hidx, harmed⟩
  · have hmem := exec_mem_of_ne_rxPayStore (not_exists.mp hi) h
    exact absurd (by rw [hmem]) hne

/-! ### The frame in flight -/

/-- Settles O40: a move of the receive engine writes no transmit register, and a host action writes no register. -/
theorem frameInFlightIsASnapshot : Obligations.FrameInFlightIsASnapshot := by
  refine ⟨fun i s t hi h => ?_, fun e s t he h => ?_⟩
  · obtain ⟨-, hpart, -⟩ := (exec_rxMove hi h).keeps_tx
    exact congrArg TxPart.txFrame hpart
  · obtain ⟨m, p, q, r, n, c, rfl, -⟩ := runEvent_host he h
    exact ⟨rfl, rfl, rfl⟩

/-! ### The host's accesses to the receive buffer -/

theorem hostRead_of_disarmed {s : State} {i : Half} (hi : i.toNat < s.rxBufSize) (ha : s.rxArmed = false) :
    hostRead i s = .next { s with hostReads := s.hostReads ++ [(i, s.mem.read (s.rxAddr i))] } := by
  simp [hostRead, hi, ha]

theorem hostRead_of_armed {s : State} {i : Half} (hi : i.toNat < s.rxBufSize) (ha : s.rxArmed = true) :
    hostRead i s = .next
      { s with hostReads := s.hostReads ++ [(i, Config.raceReadByte s.free)], free := s.free + 1 } := by
  simp [hostRead, hi, ha]

theorem hostRead_of_outside {s : State} {i : Half} (hi : s.rxBufSize ≤ i.toNat) :
    hostRead i s = .fault .hostOutsideBuffer :=
  if_neg (Nat.not_lt.mpr hi)

theorem hostWrite_of_outside {s : State} {i : Half} (b : Byte) (hi : s.rxBufSize ≤ i.toNat) :
    hostWrite i b s = .fault .hostOutsideBuffer :=
  if_neg (Nat.not_lt.mpr hi)

/-- An access at an index of the buffer races exactly while the engine is armed (R66). -/
theorem State.races_rxAddr {s : State} {i : Half} (hi : i.toNat < s.rxBufSize) :
    s.races (s.rxAddr i) = s.rxArmed := by
  simp [State.races, State.inRxBuffer, State.rxAddr, hi]

/-- A host write inside the buffer goes through where it is beside the payload on duty, or disarmed and of the value
that is there. It puts one byte: disarmed the byte written; armed some byte, at an address that races from then on. -/
theorem hostWrite_inside {s : State} {i : Half} {b : Byte} (hi : i.toNat < s.rxBufSize)
    (hduty : ∀ k, s.onDuty k → s.txBase + k = s.rxAddr i → s.rxArmed = false ∧ b = s.mem.read (s.rxAddr i)) :
    ∃ v n r, hostWrite i b s = .next { s with mem := s.mem.put (s.rxAddr i) v, free := n, raced := r } ∧
      (s.rxArmed = false → v = b ∧ n = s.free ∧ r = s.raced) ∧
      (s.rxArmed = true → ∀ c, c ∈ r ↔ c = s.rxAddr i ∨ c ∈ s.raced) := by
  obtain ⟨v, n, r, hput, hquiet, hrace⟩ := State.hostPut_spec s (s.rxAddr i) b
  rw [State.races_rxAddr hi] at hquiet hrace
  have kept : dutyKept s (s.hostPut (s.rxAddr i) b) = true := by
    rw [dutyKept_iff, hput]
    intro k hk
    by_cases haddr : s.txBase + k = s.rxAddr i
    · obtain ⟨ha, hb⟩ := hduty k hk haddr
      obtain ⟨rfl, -, -⟩ := hquiet ha
      rw [haddr, Memory.read_put_same, hb]
    · rw [Memory.read_put_other _ _ haddr]
  refine ⟨v, n, r, ?_, hquiet, hrace⟩
  rw [hostWrite, if_pos hi, underDuty_eq_next]
  exact ⟨kept, hput⟩

/-- Settles O43: reads by their equations, writes by `hostWrite_inside`, and RX_REQ starts with an empty list. -/
theorem hostAccessesToTheReceiveBuffer : Obligations.HostAccessesToTheReceiveBuffer := by
  refine ⟨fun s i hi => ⟨hostRead_of_disarmed hi, fun ha => ⟨_, _, hostRead_of_armed hi ha⟩⟩,
    fun s i b hi ha hduty => ?disarmed, fun s i b hi ha hduty => ?armed,
    fun s i b hi => ⟨hostRead_of_outside hi, hostWrite_of_outside b hi⟩,
    fun s t c h => (congrArg State.raced (le_and_eq_of_perform_withBuffer h).2).trans rfl⟩
  case disarmed =>
    obtain ⟨v, n, r, hw, hquiet, -⟩ := hostWrite_inside hi (fun k hk haddr => ⟨ha, hduty k hk haddr⟩)
    obtain ⟨rfl, rfl, rfl⟩ := hquiet ha
    exact ⟨_, hw, rfl, Memory.read_put_same _ _ _, fun a hne => Memory.read_put_other _ _ hne⟩
  case armed =>
    obtain ⟨v, n, r, hw, -, hrace⟩ := hostWrite_inside hi (fun k hk haddr => absurd haddr (hduty k hk))
    exact ⟨_, hw, rfl, hrace ha, fun a hne => Memory.read_put_other _ _ hne⟩

end Sys2Proof.Machine
end

section
/-! The frame format both ways (30_encoding.md R71, R76; 42_tx_framer.md R173): what `build_frame` makes declares and
carries its payload, and a well-formed frame is made by it. -/

namespace Sys2Proof.Machine

/-- Five bytes stand before the payload and two after it (R71). -/
@[simp] theorem length_buildFrame (p : List Byte) : (buildFrame p).length = p.length + 7 := by
  simp [buildFrame_eq]

theorem toNat_declaredLen_buildFrame {p : List Byte} (h : p.length ≤ 65535) :
    (declaredLen (buildFrame p)).toNat = p.length := by
  rw [declaredLen_buildFrame, BitVec.toNat_ofNat]
  omega

theorem payloadOf_buildFrame {p : List Byte} (h : p.length ≤ 65535) : payloadOf (buildFrame p) = p := by
  rw [payloadOf, toNat_declaredLen_buildFrame h]
  simp [buildFrame_eq]

/-- Settles O7: the seven conditions are `isFrame_buildFrame`, and the length read back is the payload's. -/
theorem buildFrameIsWellFormed : Obligations.BuildFrameIsWellFormed :=
  fun p h => ⟨isFrame_buildFrame h, length_buildFrame p, toNat_declaredLen_buildFrame h, payloadOf_buildFrame h⟩

/-- A list of `n + 2` elements ends in two of them. -/
theorem exists_append_pair {α : Type} {l : List α} {n : Nat} (h : l.length = n + 2) :
    ∃ p x y, l = p ++ [x, y] ∧ p.length = n := by
  match hd : l.drop n with
  | [x, y] => exact ⟨l.take n, x, y, by rw [← hd, List.take_append_drop], by simp [h]⟩
  | [] | [_] | _ :: _ :: _ :: _ =>
    have := congrArg List.length hd
    simp [h] at this

/-- Bytes that meet the seven conditions of R76 are what `build_frame` makes of some payload: the payload's length gives
the two length bytes, and the conditions give the markers and both CRCs. -/
theorem exists_buildFrame_of_isFrame {f : List Byte} (h : isFrame f = true) :
    ∃ p, p.length ≤ 65535 ∧ f = buildFrame p := by
  simp only [isFrame, Bool.and_eq_true, decide_eq_true_eq, beq_iff_eq, and_assoc] at h
  obtain ⟨h7, hstart, hlen, hhcrc, hdata, hfcrc, hstop⟩ := h
  match f with
  | [] | [_] | [_, _] | [_, _, _] | [_, _, _, _] => simp at h7
  | start :: lo :: hi :: hc :: data :: body =>
    have hdecl : declaredLen (start :: lo :: hi :: hc :: data :: body) = halfOf hi lo := rfl
    rw [hdecl] at hlen hfcrc hstop
    obtain ⟨p, fc, stop, rfl, hp⟩ :=
      exists_append_pair (l := body) (n := (halfOf hi lo).toNat) (by simpa using hlen)
    have hofNat : BitVec.ofNat 16 p.length = halfOf hi lo := by simp [hp]
    rw [← hp] at hfcrc hstop
    obtain rfl : start = Config.startMarker := by simpa using hstart
    obtain rfl : hc = crc8Block [Config.startMarker, lo, hi] := by simpa using hhcrc
    obtain rfl : data = Config.dataStartMarker := by simpa using hdata
    obtain rfl : stop = Config.stopMarker := by simpa [Nat.add_comm 6] using hstop
    have hfc : fc = crc8Block (Config.startMarker :: lo :: hi :: crc8Block [Config.startMarker, lo, hi] ::
        Config.dataStartMarker :: p) := by
      simpa [Nat.add_comm 5] using hfcrc
    exact ⟨p, by omega, by simp [buildFrame_eq, hofNat, hfc, framePrefix, frameHeader]⟩

/-- Settles O8: the frame was made of a payload, and the payload read from it is that one. -/
theorem frameIsBuiltFromItsPayload : Obligations.FrameIsBuiltFromItsPayload := by
  intro f h
  obtain ⟨p, hp, rfl⟩ := exists_buildFrame_of_isFrame h
  rw [payloadOf_buildFrame hp]

end Sys2Proof.Machine
end

section
/-! The operation map (30_encoding.md R81 to R90): the port words and their fields, what `decode` reads from a word, and
that it agrees with the encodings and with the Encoding clause of each operation. -/

namespace Sys2Proof.Machine

open Sys2Proof.Laws

/-! ### A port word is its fields (R83, R85, R87) -/

@[simp] theorem srcWord_fields (w : SrcWord) : srcWord (srcError w) (srcByte w) = w := by
  unfold srcWord srcError srcByte
  ext i hi
  by_cases h8 : i < 8
  · simp [h8, hi]
  · obtain rfl : i = 8 := by omega
    simp

@[simp] theorem txReqWord_fields (w : TxReqWord) : txReqWord (txReqPresent w) (txReqLen w) = w := by
  unfold txReqWord txReqPresent txReqLen
  ext i hi
  by_cases h16 : i < 16
  · simp [h16, hi]
  · obtain rfl : i = 16 := by omega
    simp

@[simp] theorem sinkWord_fields (w : SinkWord) : sinkWord (sinkError w) (sinkCount w) = w := by
  unfold sinkWord sinkError sinkCount
  ext i hi
  by_cases h17 : i < 17
  · simp [h17, hi]
  · obtain rfl : i = 17 := by omega
    simp

/-! ### The rows of R89 and R90, state by state -/

section
variable {k : Ctx}

@[simp] theorem decodeSrc_error (k : Ctx) (b : Byte) : decodeSrc k (srcWord true b) = .rxIoerr b := by
  simp [decodeSrc]

theorem decodeSrc_waitStart (h : k.rxSt = .waitStart) (b : Byte) :
    decodeSrc k (srcWord false b) = if isStartMarker b then .rxWsStart else .rxWsSkip b := by
  simp [decodeSrc, h]

theorem decodeSrc_lenLow (h : k.rxSt = .lenLow) (b : Byte) : decodeSrc k (srcWord false b) = .rxLenLow b := by
  simp [decodeSrc, h]

theorem decodeSrc_lenHigh (h : k.rxSt = .lenHigh) (b : Byte) : decodeSrc k (srcWord false b) = .rxLenHigh b := by
  simp [decodeSrc, h]

theorem decodeSrc_hdrCrc (h : k.rxSt = .hdrCrc) (b : Byte) :
    decodeSrc k (srcWord false b) = if crcOk b k.rxHcrc then .rxHdrOk b else .rxHdrBad b := by
  simp [decodeSrc, h]

theorem decodeSrc_dataStart (h : k.rxSt = .dataStart) (b : Byte) :
    decodeSrc k (srcWord false b) =
      if isDataStartMarker b then (if k.rxLen = 0 then .rxDsOk0 else .rxDsOk) else .rxDsBad b := by
  simp [decodeSrc, h]

theorem decodeSrc_payload (h : k.rxSt = .payload) (b : Byte) :
    decodeSrc k (srcWord false b) = if idxWithin k.rxIdx k.rxCap then .rxPayStore b else .rxPayDrop b := by
  simp [decodeSrc, h]

theorem decodeSrc_fullCrc (h : k.rxSt = .fullCrc) (b : Byte) :
    decodeSrc k (srcWord false b) =
      if crcOk b k.rxFcrc then (if lenOk k.rxLen k.rxCap then .rxFcOk b else .rxFcBadlen b) else .rxFcBadcrc b := by
  simp [decodeSrc, h]

theorem decodeSrc_stop (h : k.rxSt = .stop) (b : Byte) :
    decodeSrc k (srcWord false b) = if isStopMarker b then .rxStopOk else .rxStopBad b := by
  simp [decodeSrc, h]

theorem decodeTxReq_txReqWord (k : Ctx) (p : Bool) (len : Half) :
    decodeTxReq k (txReqWord p len) =
      if payloadMissing p len then .txReqNopay len
      else if frameTooBig len k.txFrameMax then .txReqToobig p len else .txReqSend p len := by
  simp [decodeTxReq]

theorem decodeSinkResp_idle (h : k.txSt = .idle) (e : Bool) (n : BitVec 17) :
    decodeSinkResp k (sinkWord e n) = .txSinkStray e n := by
  simp [decodeSinkResp, h]

theorem decodeSinkResp_waitSink (h : k.txSt = .waitSink) (e : Bool) (n : BitVec 17) :
    decodeSinkResp k (sinkWord e n) =
      if e then .txSinkErr n else if countMatches n k.txLen then .txSinkOk n else .txSinkShort n := by
  simp [decodeSinkResp, h]

/-! ### Which words an engine takes -/

theorem decode_rxReq_disarmed (h : k.rxArmed = false) (c : Half) : decode k (.rxReq c) = .ok (.rxReq c) := by
  simp [decode, h]

theorem decode_rxReq_armed (h : k.rxArmed = true) (c : Half) : decode k (.rxReq c) = .error .rxReqHeld := by
  simp [decode, h]

theorem decode_src_armed (h : k.rxArmed = true) (w : SrcWord) : decode k (.src w) = .ok (decodeSrc k w) := by
  simp [decode, h]

theorem decode_src_disarmed (h : k.rxArmed = false) (w : SrcWord) : decode k (.src w) = .error .srcNotTaken := by
  simp [decode, h]

theorem decode_txReq_idle (h : k.txSt = .idle) (w : TxReqWord) : decode k (.txReq w) = .ok (decodeTxReq k w) := by
  simp [decode, h]

theorem decode_txReq_waitSink (h : k.txSt = .waitSink) (w : TxReqWord) :
    decode k (.txReq w) = .error .txReqHeld := by
  simp [decode, h]

theorem decode_sinkResp (k : Ctx) (w : SinkWord) : decode k (.sinkResp w) = .ok (decodeSinkResp k w) := rfl

/-! ### What a word decodes to has that word and meets its clause -/

/-- A count that completes a frame is a frame's size: 7 to 65542 (R71). -/
theorem wellFormed_txSinkOk_of_countMatches {n : BitVec 17} {len : Half} (h : countMatches n len = true) :
    (Instr.txSinkOk n).wellFormed = true := by
  have hlen := len.isLt
  simp only [countMatches, frameSize, Config.frameOverhead, beq_iff_eq] at h
  simp only [Instr.wellFormed, Bool.and_eq_true, decide_eq_true_eq]
  omega

theorem decodeSrc_sound (ha : k.rxArmed = true) (w : SrcWord) :
    encode (decodeSrc k w) = .src w ∧ selects k (decodeSrc k w) = true := by
  obtain ⟨e, b, rfl⟩ : ∃ e b, w = srcWord e b := ⟨_, _, (srcWord_fields w).symm⟩
  cases e with
  | true => simp [encode, selects, Instr.wellFormed, ha]
  | false =>
    cases hst : k.rxSt with
    | waitStart =>
      rw [decodeSrc_waitStart hst]
      split <;> simp_all [encode, selects, Instr.wellFormed, isStartMarker]
    | lenLow =>
      rw [decodeSrc_lenLow hst]
      simp [encode, selects, Instr.wellFormed, ha, hst]
    | lenHigh =>
      rw [decodeSrc_lenHigh hst]
      simp [encode, selects, Instr.wellFormed, ha, hst]
    | hdrCrc =>
      rw [decodeSrc_hdrCrc hst]
      split <;> simp_all [encode, selects, Instr.wellFormed]
    | dataStart =>
      rw [decodeSrc_dataStart hst]
      split
      · split <;> simp_all [encode, selects, Instr.wellFormed, isDataStartMarker]
      · simp_all [encode, selects, Instr.wellFormed, isDataStartMarker]
    | payload =>
      rw [decodeSrc_payload hst]
      split <;> simp_all [encode, selects, Instr.wellFormed]
    | fullCrc =>
      rw [decodeSrc_fullCrc hst]
      split
      · split <;> simp_all [encode, selects, Instr.wellFormed]
      · simp_all [encode, selects, Instr.wellFormed]
    | stop =>
      rw [decodeSrc_stop hst]
      split <;> simp_all [encode, selects, Instr.wellFormed, isStopMarker]

/-- A `tx_req` word that is no TX_REQ_NOPAY comes with a payload or asks for none: the operand condition of its
other rows (R90). -/
theorem payloadMissing_eq_false {p : Bool} {len : Half} :
    payloadMissing p len = false ↔ (p || len == 0) = true := by
  cases p <;> simp [payloadMissing]

theorem payloadMissing_eq_true {p : Bool} {len : Half} :
    payloadMissing p len = true ↔ p = false ∧ len ≠ 0 := by
  simp [payloadMissing]

theorem decodeTxReq_sound (hi : k.txSt = .idle) (w : TxReqWord) :
    encode (decodeTxReq k w) = .txReq w ∧ selects k (decodeTxReq k w) = true := by
  obtain ⟨p, len, rfl⟩ : ∃ p len, w = txReqWord p len := ⟨_, _, (txReqWord_fields w).symm⟩
  rw [decodeTxReq_txReqWord]
  split
  · obtain ⟨rfl, hlen⟩ := payloadMissing_eq_true.mp ‹_›
    exact ⟨rfl, by simpa [selects, Instr.wellFormed, hi] using hlen⟩
  · have hpresent := payloadMissing_eq_false.mp (Bool.eq_false_of_not_eq_true ‹_›)
    split <;> exact ⟨rfl, by simp_all [selects, Instr.wellFormed]⟩

theorem decodeSinkResp_sound (k : Ctx) (w : SinkWord) :
    encode (decodeSinkResp k w) = .sinkResp w ∧ selects k (decodeSinkResp k w) = true := by
  obtain ⟨e, n, rfl⟩ : ∃ e n, w = sinkWord e n := ⟨_, _, (sinkWord_fields w).symm⟩
  cases hst : k.txSt with
  | idle =>
    rw [decodeSinkResp_idle hst]
    simp [encode, selects, Instr.wellFormed, hst]
  | waitSink =>
    rw [decodeSinkResp_waitSink hst]
    cases e with
    | true => simp [encode, selects, Instr.wellFormed, hst]
    | false =>
      cases hc : countMatches n k.txLen with
      | true => simp [encode, selects, wellFormed_txSinkOk_of_countMatches hc, hst, hc]
      | false => simp [encode, selects, Instr.wellFormed, hst, hc]

/-- What a word decodes to has that word, and its Encoding clause holds. -/
theorem decode_sound {w : PortWord} {i : Instr} (h : decode k w = .ok i) :
    encode i = w ∧ selects k i = true := by
  cases w with
  | rst =>
    cases h
    exact ⟨rfl, rfl⟩
  | rxReq c =>
    cases ha : k.rxArmed with
    | true => simp [decode_rxReq_armed ha] at h
    | false =>
      rw [decode_rxReq_disarmed ha] at h
      cases h
      exact ⟨rfl, by simp [selects, Instr.wellFormed, ha]⟩
  | src w =>
    cases ha : k.rxArmed with
    | true =>
      rw [decode_src_armed ha] at h
      cases h
      exact decodeSrc_sound ha w
    | false => simp [decode_src_disarmed ha] at h
  | txReq w =>
    cases hst : k.txSt with
    | idle =>
      rw [decode_txReq_idle hst] at h
      cases h
      exact decodeTxReq_sound hst w
    | waitSink => simp [decode_txReq_waitSink hst] at h
  | sinkResp w =>
    cases h
    exact decodeSinkResp_sound k w

/-! ### An operation whose clause holds is what its word decodes to -/

/-- The word of an operation decodes to it in every context in which its Encoding clause holds. -/
theorem decode_encode_of_selects {i : Instr} (h : selects k i = true) : decode k (encode i) = .ok i := by
  cases i <;> simp only [selects, Instr.wellFormed, rxIn_eq_true, Bool.and_eq_true, Bool.not_eq_true', beq_iff_eq,
    bne_iff_ne, ne_eq, true_and, and_assoc] at h
  case rxIoerr b => rw [encode, decode_src_armed h, decodeSrc_error]
  case rxWsStart | rxWsSkip => simp_all [encode, decode_src_armed, decodeSrc_waitStart, isStartMarker]
  case rxLenLow => simp_all [encode, decode_src_armed, decodeSrc_lenLow]
  case rxLenHigh => simp_all [encode, decode_src_armed, decodeSrc_lenHigh]
  case rxHdrOk | rxHdrBad => simp_all [encode, decode_src_armed, decodeSrc_hdrCrc]
  case rxDsOk | rxDsOk0 | rxDsBad => simp_all [encode, decode_src_armed, decodeSrc_dataStart, isDataStartMarker]
  case rxPayStore | rxPayDrop => simp_all [encode, decode_src_armed, decodeSrc_payload]
  case rxFcBadcrc | rxFcBadlen | rxFcOk => simp_all [encode, decode_src_armed, decodeSrc_fullCrc]
  case rxStopOk | rxStopBad => simp_all [encode, decode_src_armed, decodeSrc_stop, isStopMarker]
  case rxReq c => exact decode_rxReq_disarmed h c
  case txReqNopay len =>
    simp [encode, decode_txReq_idle h.2, decodeTxReq_txReqWord, payloadMissing_eq_true.mpr ⟨rfl, h.1⟩]
  case txReqToobig p len | txReqSend p len =>
    obtain ⟨hpresent, hidle, hsize⟩ := h
    simp [encode, decode_txReq_idle hidle, decodeTxReq_txReqWord, payloadMissing_eq_false.mpr hpresent, hsize]
  case txSinkOk | txSinkShort | txSinkErr => simp_all [encode, decode_sinkResp, decodeSinkResp_waitSink]
  case txSinkStray e n => rw [encode, decode_sinkResp, decodeSinkResp_idle h]
  case reset => rfl

end

/-! ### The operation map as a whole -/

/-- Every well-formed operation has a context in which its word decodes to it, its `home`. -/
theorem decode_home : ∀ i : Instr, HomeDecodes.Statement i
  | .rxIoerr b => HomeDecodes.rxIoerr b
  | .rxWsStart => HomeDecodes.rxWsStart
  | .rxWsSkip b => HomeDecodes.rxWsSkip b
  | .rxLenLow b => HomeDecodes.rxLenLow b
  | .rxLenHigh b => HomeDecodes.rxLenHigh b
  | .rxHdrOk b => HomeDecodes.rxHdrOk b
  | .rxHdrBad b => HomeDecodes.rxHdrBad b
  | .rxDsOk => HomeDecodes.rxDsOk
  | .rxDsOk0 => HomeDecodes.rxDsOk0
  | .rxDsBad b => HomeDecodes.rxDsBad b
  | .rxPayStore b => HomeDecodes.rxPayStore b
  | .rxPayDrop b => HomeDecodes.rxPayDrop b
  | .rxFcBadcrc b => HomeDecodes.rxFcBadcrc b
  | .rxFcBadlen b => HomeDecodes.rxFcBadlen b
  | .rxFcOk b => HomeDecodes.rxFcOk b
  | .rxStopOk => HomeDecodes.rxStopOk
  | .rxStopBad b => HomeDecodes.rxStopBad b
  | .rxReq c => HomeDecodes.rxReq c
  | .txReqNopay len => HomeDecodes.txReqNopay len
  | .txReqToobig p len => HomeDecodes.txReqToobig p len
  | .txReqSend p len => HomeDecodes.txReqSend p len
  | .txSinkOk n => HomeDecodes.txSinkOk n
  | .txSinkShort n => HomeDecodes.txSinkShort n
  | .txSinkErr x => HomeDecodes.txSinkErr x
  | .txSinkStray e n => HomeDecodes.txSinkStray e n
  | .reset => HomeDecodes.reset

/-- Settles O11: one direction by the operation, the other by the word, and each operation's `home` for the last
part. -/
theorem decodeEncodeAgree : Obligations.DecodeEncodeAgree :=
  ⟨fun _ _ => decode_encode_of_selects, fun _ _ _ => decode_sound,
    fun i hi => ⟨HomeDecodes.home i, decode_home i hi⟩⟩

/-- A word that decodes selects one operation, the decoded one: any other that it selected would be decoded as well. -/
theorem decode_unique {k : Ctx} {w : PortWord} {i : Instr} (h : decode k w = .ok i) :
    (encode i = w ∧ selects k i = true) ∧ ∀ j, encode j = w → selects k j = true → j = i := by
  refine ⟨decode_sound h, fun j hj hsel => ?_⟩
  have hd := decode_encode_of_selects hsel
  rw [hj, h] at hd
  cases hd
  rfl

theorem isReceiveOp_of_encode_src {i : Instr} {w : SrcWord} (h : encode i = .src w) : isReceiveOp i = true := by
  cases i <;> simp_all [encode, isReceiveOp]

theorem isTransmitOp_of_encode_txReq {i : Instr} {w : TxReqWord} (h : encode i = .txReq w) :
    isTransmitOp i = true := by
  cases i <;> simp_all [encode, isTransmitOp]

theorem isTransmitOp_of_encode_sinkResp {i : Instr} {w : SinkWord} (h : encode i = .sinkResp w) :
    isTransmitOp i = true := by
  cases i <;> simp_all [encode, isTransmitOp]

/-- Settles O12: the armed engine decodes every source word, an error word before its state is looked at (R205). -/
theorem sourceWordSelectsOneOperation : Obligations.SourceWordSelectsOneOperation := by
  intro k w ha
  have hd := decode_src_armed ha w
  obtain ⟨hsel, huniq⟩ := decode_unique hd
  refine ⟨⟨_, hsel, huniq, isReceiveOp_of_encode_src hsel.1⟩, fun he => ?_⟩
  rw [hd, decodeSrc, if_pos he]

/-- Settles O13: a `tx_req` decodes in IDLE, and a `sink_resp` in both states. -/
theorem transmitWordSelectsOneOperation : Obligations.TransmitWordSelectsOneOperation := by
  refine ⟨fun k w hi => ?_, fun k w => ?_⟩
  · obtain ⟨hsel, huniq⟩ := decode_unique (decode_txReq_idle hi w)
    exact ⟨_, hsel, huniq, isTransmitOp_of_encode_txReq hsel.1⟩
  · obtain ⟨hsel, huniq⟩ := decode_unique (decode_sinkResp k w)
    exact ⟨_, hsel, huniq, isTransmitOp_of_encode_sinkResp hsel.1⟩

/-- Settles O14: the bits of each word are evaluated. -/
theorem specWordsDecode : Obligations.SpecWordsDecode :=
  ⟨rfl, rfl, rfl, rfl, rfl, rfl, rfl, rfl, rfl, rfl, rfl⟩

end Sys2Proof.Machine
end

section
/-! Offered words (30_encoding.md R91, R93): what a word its engine does not take leaves behind, that no taken word
stops the machine, and that a held request is taken next. -/

namespace Sys2Proof.Machine

/-! ### Offering a word -/

theorem offer_of_decode_ok {w : PortWord} {s : State} {i : Instr} (h : decode s.ctx w = .ok i) :
    offer w s = exec i s := by
  simp [offer, h]

theorem offer_of_decode_error {w : PortWord} {s : State} {r : Reject} (h : decode s.ctx w = .error r) :
    offer w s = .next (s.wait w) := by
  simp [offer, h]

/-- A source word delivered behind others joins them (R122). -/
theorem runEvent_src_of_waiting {s : State} (w : SrcWord) (h : s.source ≠ []) :
    runEvent (.port (.src w)) s = .next (s.wait (.src w)) := by
  simp [runEvent, joinsSource, h]

/-- Settles O17: three words that do not decode, and one that stands behind others, wait. -/
theorem untakenWordsWait : Obligations.UntakenWordsWait :=
  ⟨fun _ c ha => offer_of_decode_error (decode_rxReq_armed ha c),
    fun _ w hst => offer_of_decode_error (decode_txReq_waitSink hst w),
    fun _ w ha => offer_of_decode_error (decode_src_disarmed ha w),
    fun _ w hq => runEvent_src_of_waiting w hq⟩

/-! ### Running an operation -/

theorem perform_of_not_selects {i : Instr} {s : State} {o : Result} (h : selects s.ctx i = false) :
    perform i s o = .refused .notSelected := by
  simp [perform, h]

/-- Settles O16: every arm of `exec` asks first whether the operation is selected; RESET always is. -/
theorem unselectedOperationsAreRefused : Obligations.UnselectedOperationsAreRefused := by
  intro i s h
  cases i
  case reset => cases h
  all_goals exact perform_of_not_selects h

/-- A selected operation runs, where the buffer is large enough for the two that ask for it (70_reset_and_hazards.md
R237). -/
theorem exec_of_selects {i : Instr} {s : State} (h : selects s.ctx i = true)
    (hreq : ∀ c, i = .rxReq c → c.toNat ≤ s.rxBufSize)
    (hstore : ∀ b, i = .rxPayStore b → s.rxCap.toNat ≤ s.rxBufSize) : ∃ t, exec i s = .next t := by
  cases i
  case rxReq c => exact ⟨_, (perform_of_selects h).trans (withBuffer_of_le (hreq c rfl))⟩
  case rxPayStore b => exact ⟨_, (perform_of_selects h).trans (withBuffer_of_le (hstore b rfl))⟩
  case reset => exact ⟨_, (exec_reset s).trans (perform_of_selects h)⟩
  all_goals exact ⟨_, perform_of_selects h⟩

theorem rxArmed_of_selects_rxPayStore {k : Ctx} {b : Byte} (h : selects k (.rxPayStore b) = true) :
    k.rxArmed = true := by
  simp only [selects, Bool.and_eq_true, rxIn_eq_true] at h
  obtain ⟨-, ⟨ha, -⟩, -⟩ := h
  exact ha

/-- A word offered in the invariant is processed, where an `rx_req` asks for no more than the buffer has. -/
theorem offer_of_inv {w : PortWord} {s : State} (hs : s.Inv) (hc : ∀ c, w = .rxReq c → c.toNat ≤ s.rxBufSize) :
    ∃ t, offer w s = .next t := by
  cases hd : decode s.ctx w with
  | error r => exact ⟨_, offer_of_decode_error hd⟩
  | ok i =>
    obtain ⟨hw, hsel⟩ := decode_sound hd
    rw [offer_of_decode_ok hd]
    refine exec_of_selects hsel (fun c hi => hc c ?_) (fun b hi => hs.buffer ?_)
    · rw [← hw, hi, encode]
    · exact rxArmed_of_selects_rxPayStore (hi ▸ hsel)

theorem Takes.rxBufSize_eq {s u : State} {w : PortWord} (h : Takes s w u) : u.rxBufSize = s.rxBufSize :=
  congrArg Params.rxBufSize h.params_eq

/-- Settles O18: the step offers the word, in a state that meets the invariant as well. -/
theorem everyOfferedWordIsProcessed : Obligations.EveryOfferedWordIsProcessed := by
  intro s u w hs ht hc
  rw [step_of_takes ht]
  exact offer_of_inv (hs.of_takes ht) (by simpa only [ht.rxBufSize_eq] using hc)

/-! ### Held requests -/

/-- RX_REQ at a disarmed engine with a large enough buffer arms it (41_rx_framer.md R120). -/
theorem exec_rxReq_of_disarmed {s : State} {c : Half} (ha : s.rxArmed = false) (hc : c.toNat ≤ s.rxBufSize) :
    exec (.rxReq c) s = .next { s.abandon with rxCap := c, rxArmed := true, raced := [] } :=
  (perform_of_selects (by simp [selects, Instr.wellFormed, ha])).trans (withBuffer_of_le hc)

/-- No operation of the transmit engine writes the held requests or the script. -/
theorem TxMove.keeps_offers {i : Instr} {s t : State} (h : TxMove i s t) :
    t.txReqs = s.txReqs ∧ t.script = s.script := by
  cases h <;> subst_vars <;> exact ⟨rfl, rfl⟩

/-- The first held `rx_req` is the one to take where the receive engine is disarmed. -/
theorem heldRequest_rx {s : State} {c : Half} {cs : List Half} (ha : s.rxArmed = false) (hq : s.rxReqs = c :: cs) :
    heldRequest s = some (.rxReq c, { s with rxReqs := cs }) := by
  simp [heldRequest, ha, hq]

/-- The first held `tx_req` is the one to take in IDLE, where no held `rx_req` can be taken (log 2). -/
theorem heldRequest_tx {s : State} {w : TxReqWord} {ws : List TxReqWord} (hi : s.txSt = .idle)
    (hq : s.txReqs = w :: ws) (hrx : s.rxArmed = true ∨ s.rxReqs = []) :
    heldRequest s = some (.txReq w, { s with txReqs := ws }) := by
  rcases hrx with ha | hr
  · simp [heldRequest, hi, hq, ha]
  · simp [heldRequest, hi, hq, hr]

/-- A pending response is taken before the held request whose engine gave it (60_exceptions.md R207; log 12). -/
theorem step_of_responseFirst {s u v : State} {w : PortWord} (hr : s.resetDone = true)
    (hheld : heldRequest s = some (w, u)) (hfirst : responseFirst w s = some v) : step s = .next v := by
  simp [step, runStep, runNext, hr, hheld, hfirst]

/-- Settles O55: a ready held request is what the step takes (`Takes.heldRx`, `Takes.heldTx`), a pending response comes
before it, and RESET empties both queues. -/
theorem heldRequestsAreTakenNext : Obligations.HeldRequestsAreTakenNext := by
  refine ⟨fun s c cs hr ha hp hq _ hc => ?rx, fun s w ws hr hi hp hq hrx => ?tx,
    fun s hr ha hp hq _ => ?rxResponse, fun s hr hi hp hq hrx => ?txResponse,
    fun s => ⟨_, (exec_reset s).trans (perform_of_selects rfl), rfl, rfl⟩⟩
  case rx =>
    have hstep := calc step s
      _ = offer (.rxReq c) { s with rxReqs := cs } := step_of_takes (.heldRx c cs hr ha hp hq)
      _ = exec (.rxReq c) { s with rxReqs := cs } := offer_of_decode_ok (decode_rxReq_disarmed ha c)
      _ = .next _ := exec_rxReq_of_disarmed ha hc
    exact ⟨_, hstep, rfl, rfl, rfl, rfl⟩
  case tx =>
    have hd : decode s.ctx (.txReq w) = .ok (decodeTxReq s.ctx w) := decode_txReq_idle hi w
    obtain ⟨hw, hsel⟩ := decode_sound hd
    have htx := isTransmitOp_of_encode_txReq hw
    obtain ⟨t, ht⟩ : ∃ t, exec (decodeTxReq s.ctx w) { s with txReqs := ws } = .next t :=
      exec_of_selects hsel (fun c h => by simp [h, isTransmitOp] at htx) (fun b h => by simp [h, isTransmitOp] at htx)
    obtain ⟨hreqs, hscript⟩ := (exec_txMove htx ht).keeps_offers
    have hstep := calc step s
      _ = offer (.txReq w) { s with txReqs := ws } := step_of_takes (.heldTx w ws hr hrx hi hp hq)
      _ = exec (decodeTxReq s.ctx w) { s with txReqs := ws } := offer_of_decode_ok hd
      _ = .next t := ht
    exact ⟨_, t, hd, ht, hstep, hreqs, hscript⟩
  case rxResponse =>
    obtain ⟨c, cs, hcs⟩ := List.exists_cons_of_ne_nil hq
    exact step_of_responseFirst hr (heldRequest_rx ha hcs)
      (by simp [responseFirst, ha, Option.isSome_iff_ne_none, hp, State.takeRx])
  case txResponse =>
    obtain ⟨w, ws, hws⟩ := List.exists_cons_of_ne_nil hq
    exact step_of_responseFirst hr (heldRequest_tx hi hws hrx)
      (by simp [responseFirst, hi, Option.isSome_iff_ne_none, hp, State.takeTx])

end Sys2Proof.Machine
end

section
/-! The laws of the CRC-8 unit (40_crc8.md R102, R104 to R107). One shift step multiplies the register, read as a
polynomial over GF(2), by `x` modulo `g = x^8 + x^2 + x + 1`. So it is linear; it is injective, as `g` has a constant
term; and it keeps the parity of the bits, as `g(1) = 0`. -/

namespace Sys2Proof.Machine

/-! ### The shift step -/

/-- The generator is folded in where the top bit falls out. -/
theorem crc8Shift_eq_xor (c : Byte) : crc8Shift c = (c <<< 1) ^^^ (if c.msb then Config.poly else 0) := by
  unfold crc8Shift
  split <;> simp

@[simp] theorem crc8Shift_zero : crc8Shift 0 = 0 := by decide

/-- The shift step is linear: so is the shift, and so is what the top bit folds in. -/
theorem crc8Shift_xor (a b : Byte) : crc8Shift (a ^^^ b) = crc8Shift a ^^^ crc8Shift b := by
  have hpoly : (if (a ^^^ b).msb then Config.poly else 0) =
      (if a.msb then Config.poly else 0) ^^^ (if b.msb then Config.poly else 0) := by
    rw [BitVec.msb_xor]
    cases a.msb <;> cases b.msb <;> simp
  simp only [crc8Shift_eq_xor, hpoly, BitVec.shiftLeft_xor_distrib]
  ac_rfl

/-- The bit that falls out comes back as bit 0, the constant term of the generator. -/
theorem crc8Shift_getLsbD_zero (c : Byte) : (crc8Shift c).getLsbD 0 = c.msb := by
  rw [crc8Shift_eq_xor, BitVec.getLsbD_xor, BitVec.getLsbD_shiftLeft]
  cases c.msb <;> simp [Config.poly]

/-- The shift step loses nothing: bit 0 of its result tells the top bit, and then the others are told by the shift. -/
theorem crc8Shift_injective : Function.Injective crc8Shift := by
  intro a b h
  have hmsb : a.msb = b.msb := by rw [← crc8Shift_getLsbD_zero, h, crc8Shift_getLsbD_zero]
  have hshl : a <<< 1 = b <<< 1 := by
    simpa only [crc8Shift_eq_xor, hmsb, BitVec.xor_left_inj] using h
  ext i hi
  by_cases htop : i = 7
  · simpa [htop, BitVec.msb_eq_getLsbD_last] using hmsb
  · simpa [show i + 1 < 8 by omega] using congrArg (·.getLsbD (i + 1)) hshl

@[simp] theorem iterate_crc8Shift_zero (n : Nat) : crc8Shift^[n] 0 = 0 := Function.iterate_fixed crc8Shift_zero n

theorem iterate_crc8Shift_xor (n : Nat) (a b : Byte) :
    crc8Shift^[n] (a ^^^ b) = crc8Shift^[n] a ^^^ crc8Shift^[n] b := by
  induction n with
  | zero => rfl
  | succ n ih => simp only [Function.iterate_succ_apply', ih, crc8Shift_xor]

/-- No number of shift steps takes a register to zero that is not zero. -/
theorem iterate_crc8Shift_ne_zero {n : Nat} {c : Byte} (h : c ≠ 0) : crc8Shift^[n] c ≠ 0 := by
  rw [← iterate_crc8Shift_zero n]
  exact (crc8Shift_injective.iterate n).ne h

/-! ### The update and the block function -/

theorem crc8Update_eq_iterate (c b : Byte) : crc8Update c b = crc8Shift^[8] (c ^^^ b) := rfl

theorem crc8Update_zero_left (b : Byte) : crc8Update 0 b = crc8Shift^[8] b := by
  simp [crc8Update_eq_iterate]

theorem crc8Update_zero_right (c : Byte) : crc8Update c 0 = crc8Shift^[8] c := by
  simp [crc8Update_eq_iterate]

theorem crc8Update_xor (c d b e : Byte) : crc8Update (c ^^^ d) (b ^^^ e) = crc8Update c b ^^^ crc8Update d e := by
  simp only [crc8Update_eq_iterate, ← iterate_crc8Shift_xor]
  congr 1
  ac_rfl

@[simp] theorem crc8Block_nil (c : Byte) : crc8Block [] c = c := rfl

theorem crc8Block_cons (b : Byte) (s : List Byte) (c : Byte) :
    crc8Block (b :: s) c = crc8Block s (crc8Update c b) := rfl

/-- Linearity in the bytes and in the start accumulator together (R106). -/
theorem crc8Block_xor {s e : List Byte} (h : s.length = e.length) (c d : Byte) :
    crc8Block (List.zipWith (· ^^^ ·) s e) (c ^^^ d) = crc8Block s c ^^^ crc8Block e d := by
  induction s generalizing e c d with
  | nil => simp [List.length_eq_zero_iff.mp h.symm]
  | cons b s ih =>
    obtain ⟨b', e, rfl⟩ := List.exists_cons_of_length_eq_add_one h.symm
    rw [List.zipWith_cons_cons, crc8Block_cons, crc8Update_xor, ih (Nat.succ.inj h)]
    rfl

/-- What an error pattern adds to the CRC is the pattern's own CRC from zero (R106). -/
theorem crc8Block_xor_error {s e : List Byte} (h : s.length = e.length) (c : Byte) :
    crc8Block (List.zipWith (· ^^^ ·) s e) c = crc8Block s c ^^^ crc8Block e 0 := by
  simpa using crc8Block_xor h c 0

/-- An error goes undetected just where its own CRC from zero is zero (R106). -/
theorem crc8Block_xor_eq_iff {s e : List Byte} (h : s.length = e.length) (c : Byte) :
    crc8Block (List.zipWith (· ^^^ ·) s e) c = crc8Block s c ↔ crc8Block e 0 = 0 := by
  rw [crc8Block_xor_error h]
  simp

/-- The CRC through the FCRC byte of a built frame: the body and its own CRC. -/
theorem take_buildFrame_fcrc (p : List Byte) :
    (buildFrame p).take (6 + p.length) =
      (framePrefix (BitVec.ofNat 16 p.length) ++ p) ++ [crc8Block (framePrefix (BitVec.ofNat 16 p.length) ++ p)] := by
  simp [buildFrame_eq, framePrefix, frameHeader, Nat.add_comm 6, List.take_append]

/-- Settles O3: a register folded into itself vanishes, and the header with its CRC, and a built frame through its FCRC
byte, are sequences with their own CRC behind them. -/
theorem crcZeroResidue : Obligations.CrcZeroResidue := by
  have residue (s : List Byte) : crc8Block (s ++ [crc8Block s]) = 0 := by rw [crc8Block_concat, crc8Update_self]
  refine ⟨residue, crc8Block_header_crc, fun f h => ?_⟩
  obtain ⟨p, hp, rfl⟩ := exists_buildFrame_of_isFrame h
  rw [toNat_declaredLen_buildFrame hp, take_buildFrame_fcrc]
  exact residue _

/-- Settles O4, by the linearity of every shift step. -/
theorem crcIsLinear : Obligations.CrcIsLinear :=
  fun _ _ c₀ h => ⟨crc8Block_xor_error h c₀, crc8Block_xor_eq_iff h c₀⟩

/-! ### The parity of the bits (R107(b)) -/

/-- The number of set bits of a byte. -/
def setBits (b : Byte) : Nat := (List.range 8).countP fun i => b.getLsbD i

theorem setBits_zero : setBits 0 = 0 := by decide

theorem countP_xor_mod_two (l : List Nat) (f g : Nat → Bool) :
    (l.countP fun i => f i ^^ g i) % 2 = (l.countP f + l.countP g) % 2 := by
  induction l with
  | nil => rfl
  | cons i l ih =>
    simp only [List.countP_cons]
    cases f i <;> cases g i <;> simp <;> omega

theorem setBits_xor_mod_two (a b : Byte) : setBits (a ^^^ b) % 2 = (setBits a + setBits b) % 2 := by
  simp only [setBits, BitVec.getLsbD_xor]
  exact countP_xor_mod_two _ _ _

/-- A shift by one drops the top bit and keeps the others. -/
theorem setBits_shiftLeft_one (c : Byte) : setBits (c <<< 1) + (if c.msb then 1 else 0) = setBits c := by
  have hshl : setBits (c <<< 1) = (List.range 7).countP fun i => c.getLsbD i := by
    rw [setBits, List.range_succ_eq_map, List.countP_cons, List.countP_map, if_neg (by simp), Nat.add_zero]
    refine List.countP_congr fun i hi => ?_
    simp [show i + 1 < 8 by have := List.mem_range.mp hi; omega]
  rw [hshl, setBits, List.range_succ (n := 7), List.countP_append, BitVec.msb_eq_getLsbD_last]
  simp only [List.countP_singleton]

/-- The generator has an even number of terms: the bit that falls out brings three others in. -/
theorem setBits_crc8Shift_mod_two (c : Byte) : setBits (crc8Shift c) % 2 = setBits c % 2 := by
  have hpoly : setBits Config.poly = 3 := by decide
  rw [crc8Shift_eq_xor, setBits_xor_mod_two, ← setBits_shiftLeft_one c]
  split
  · omega
  · rw [setBits_zero]

theorem setBits_iterate_crc8Shift_mod_two (n : Nat) (c : Byte) :
    setBits (crc8Shift^[n] c) % 2 = setBits c % 2 := by
  induction n with
  | zero => rfl
  | succ n ih => rw [Function.iterate_succ_apply', setBits_crc8Shift_mod_two, ih]

/-- The CRC has the parity of all the bits it was computed from. -/
theorem setBits_crc8Block_mod_two (s : List Byte) (c : Byte) :
    setBits (crc8Block s c) % 2 = (setBits c + (s.map setBits).sum) % 2 := by
  induction s generalizing c with
  | nil => simp
  | cons b s ih =>
    have hupdate : setBits (crc8Update c b) % 2 = (setBits c + setBits b) % 2 := by
      rw [crc8Update_eq_iterate, setBits_iterate_crc8Shift_mod_two, setBits_xor_mod_two]
    rw [crc8Block_cons, ih, List.map_cons, List.sum_cons]
    omega

/-- Settles O5: an undetected error has the CRC zero, whose parity is even, so it has an even number of bits. -/
theorem crcDetectsOddErrors : Obligations.CrcDetectsOddErrors := by
  intro s e hlen hodd heq
  have hcrc : crc8Block e 0 = 0 := (crc8Block_xor_eq_iff hlen 0).mp heq
  have hparity := setBits_crc8Block_mod_two e 0
  change (e.map setBits).sum % 2 = 1 at hodd
  rw [hcrc, setBits_zero, Nat.zero_add, hodd] at hparity
  contradiction

/-! ### Bursts (R107(c)) -/

@[simp] theorem errorBit_cons_add (b : Byte) (e : List Byte) (p : Nat) : errorBit (b :: e) (p + 8) = errorBit e p := by
  simp [errorBit]

theorem errorBit_cons_of_lt {p : Nat} (h : p < 8) (b : Byte) (e : List Byte) :
    errorBit (b :: e) p = b.getLsbD (7 - p) := by
  simp [errorBit, Nat.div_eq_of_lt h, Nat.mod_eq_of_lt h]

/-- As `errorBit_cons_of_lt`, read from the bit's index in its byte. -/
theorem getLsbD_eq_errorBit {i : Nat} (h : i < 8) (b : Byte) (e : List Byte) :
    b.getLsbD i = errorBit (b :: e) (7 - i) := by
  rw [errorBit_cons_of_lt (by omega), show 7 - (7 - i) = i by omega]

/-- A byte without a wrong bit is zero. -/
theorem eq_zero_of_errorBit {b : Byte} {e : List Byte} (h : ∀ p < 8, errorBit (b :: e) p = false) : b = 0 := by
  refine BitVec.eq_of_getLsbD_eq fun i hi => ?_
  rw [getLsbD_eq_errorBit hi b e, h _ (by omega), BitVec.ofNat_eq_ofNat, BitVec.getLsbD_zero]

/-- A pattern without a wrong bit keeps a register that is not zero from becoming zero. -/
theorem crc8Block_ne_zero_of_no_error {e : List Byte} {c : Byte} (h : ∀ p, errorBit e p = false) (hc : c ≠ 0) :
    crc8Block e c ≠ 0 := by
  induction e generalizing c with
  | nil => exact hc
  | cons b e ih =>
    obtain rfl : b = 0 := eq_zero_of_errorBit fun p _ => h p
    refine ih (fun p => by simpa using h (p + 8)) ?_
    rw [crc8Update_zero_right]
    exact iterate_crc8Shift_ne_zero hc

/-- While no set bit reaches the top, the shift steps only shift. -/
theorem iterate_crc8Shift_eq_shiftLeft {n : Nat} {c : Byte} (h : ∀ i, 8 - n ≤ i → c.getLsbD i = false) :
    crc8Shift^[n] c = c <<< n := by
  induction n with
  | zero => simp
  | succ n ih =>
    have hmsb : (c <<< n).msb = false := by
      rw [BitVec.msb_eq_getLsbD_last, BitVec.getLsbD_shiftLeft, h _ (by omega), Bool.and_false]
    rw [Function.iterate_succ_apply', ih fun i hi => h i (by omega), crc8Shift_eq_xor, hmsb, BitVec.shiftLeft_add]
    simp

/-- Two bytes `a` and `b` whose set bits lie in the window of 8 positions from `p` on: their CRC is the byte in that
window, shifted by the positions from `p` to the end. -/
theorem crc8Update_pair_eq_window {a b : Byte} {p : Nat} (hp : p < 8) (ha : ∀ i, 8 - p ≤ i → a.getLsbD i = false)
    (hb : ∀ i, i < 8 - p → b.getLsbD i = false) :
    crc8Update (crc8Update 0 a) b = crc8Shift^[8 + (8 - p)] (a <<< p ^^^ b >>> (8 - p)) := by
  have hfirst : crc8Shift^[8 - p] (a <<< p) = crc8Update 0 a := by
    rw [← iterate_crc8Shift_eq_shiftLeft ha, ← Function.iterate_add_apply, crc8Update_zero_left,
      Nat.sub_add_cancel hp.le]
  have hsecond : crc8Shift^[8 - p] (b >>> (8 - p)) = b := by
    rw [iterate_crc8Shift_eq_shiftLeft fun i hi => by
      rw [BitVec.getLsbD_ushiftRight, BitVec.getLsbD_of_ge b _ (by omega)]]
    refine BitVec.eq_of_getLsbD_eq fun i hi => ?_
    by_cases hlow : i < 8 - p
    · simpa [hlow] using (hb i hlow).symm
    · simp [hlow, hi, show 8 - p + (i - (8 - p)) = i by omega]
  rw [Function.iterate_add_apply, iterate_crc8Shift_xor, hfirst, hsecond, ← crc8Update_eq_iterate]

/-- The window that starts at a wrong bit is not zero: that bit is its top bit. -/
theorem window_ne_zero {a b : Byte} {p : Nat} (hp : p < 8) (ha : a.getLsbD (7 - p) = true) :
    a <<< p ^^^ b >>> (8 - p) ≠ 0 := by
  intro h
  have htop : (a <<< p ^^^ b >>> (8 - p)).getLsbD 7 = true := by
    rw [BitVec.getLsbD_xor, BitVec.getLsbD_shiftLeft, BitVec.getLsbD_ushiftRight, ha,
      BitVec.getLsbD_of_ge b _ (by omega)]
    simp
    omega
  simp [h] at htop

/-- A burst that starts in the first byte lies in the window of the first two bytes. That window is not zero, and the
bytes behind it, which have no wrong bit, keep the register so. -/
theorem crc8Block_ne_zero_of_burst_in_head {a : Byte} {e : List Byte} {p : Nat} (h8 : p < 8)
    (hp : errorBit (a :: e) p = true) (hclear : ∀ q, q < p ∨ p + 8 ≤ q → errorBit (a :: e) q = false) :
    crc8Block (a :: e) 0 ≠ 0 := by
  have htop : a.getLsbD (7 - p) = true := by rwa [errorBit_cons_of_lt h8] at hp
  cases e with
  | nil =>
    have hne : a ≠ 0 := fun h => by simp [h] at htop
    rw [crc8Block_cons, crc8Update_zero_left]
    exact iterate_crc8Shift_ne_zero hne
  | cons b e =>
    have ha (i : Nat) (hi : 8 - p ≤ i) : a.getLsbD i = false := by
      rcases Nat.lt_or_ge i 8 with hi8 | hi8
      · rw [getLsbD_eq_errorBit hi8 a (b :: e), hclear _ (by omega)]
      · exact BitVec.getLsbD_of_ge a i hi8
    have hb (i : Nat) (hi : i < 8 - p) : b.getLsbD i = false := by
      rw [getLsbD_eq_errorBit (by omega) b e, ← errorBit_cons_add a, hclear _ (by omega)]
    have hrest (q : Nat) : errorBit e q = false := by
      rw [← errorBit_cons_add b, ← errorBit_cons_add a, hclear _ (by omega)]
    rw [crc8Block_cons, crc8Block_cons, crc8Update_pair_eq_window h8 ha hb]
    exact crc8Block_ne_zero_of_no_error hrest (iterate_crc8Shift_ne_zero (window_ne_zero h8 htop))

/-- The CRC of a burst that starts at bit `p` and lies within 8 positions is not zero: the zero bytes before it leave
the register zero. -/
theorem crc8Block_ne_zero_of_burst {e : List Byte} {p : Nat} (hp : errorBit e p = true)
    (hclear : ∀ q, q < p ∨ p + 8 ≤ q → errorBit e q = false) : crc8Block e 0 ≠ 0 := by
  induction e generalizing p with
  | nil => simp [errorBit] at hp
  | cons a e ih =>
    rcases Nat.lt_or_ge p 8 with h8 | h8
    · exact crc8Block_ne_zero_of_burst_in_head h8 hp hclear
    · obtain ⟨p, rfl⟩ := Nat.exists_eq_add_of_le' h8
      obtain rfl : a = 0 := eq_zero_of_errorBit fun q hq => hclear q (by omega)
      rw [errorBit_cons_add] at hp
      rw [crc8Block_cons, crc8Update_self]
      exact ih hp fun q hq => by rw [← errorBit_cons_add 0, hclear _ (by omega)]

/-- Settles O6: the burst starts at its first wrong bit. -/
theorem crcDetectsShortBursts : Obligations.CrcDetectsShortBursts := by
  intro s e hlen hwrong hburst heq
  have hfirst := Nat.find_spec hwrong
  refine crc8Block_ne_zero_of_burst hfirst (fun q hq => ?_) ((crc8Block_xor_eq_iff hlen 0).mp heq)
  refine Bool.eq_false_iff.mpr fun h => ?_
  have hle := Nat.find_min' hwrong h
  have hlt := hburst _ q hfirst h
  omega

/-! ### The update and the table (R102, R104) -/

/-- Settles O1: the shift steps read the register only after the byte is folded in. -/
theorem crcUpdateIsATable : Obligations.CrcUpdateIsATable := by
  intro c b
  refine ⟨?_, crc8Update_self c⟩
  rw [crc8Update_zero_left, crc8Update_eq_iterate]

/-- Settles O2: `crc8Block_concat` from the initial value. -/
theorem crcIncrementalAgreesWithBlock : Obligations.CrcIncrementalAgreesWithBlock :=
  fun s b => crc8Block_concat s b Config.crcInit

end Sys2Proof.Machine
end

section
/-! The receive engine, operation by operation (41_rx_framer.md R120 to R141): what each answers in its own state, on
its own word. -/

namespace Sys2Proof.Machine

/-! ### A length and its bytes as numbers (30_encoding.md R72) -/

theorem toNat_highByte (v : Half) : (highByte v).toNat = v.toNat / 256 := by
  have := v.isLt
  simp [highByte, Nat.shiftRight_eq_div_pow]
  omega

theorem toNat_lowByte (v : Half) : (lowByte v).toNat = v.toNat % 256 := by
  simp [lowByte]

theorem toNat_halfOf (hi lo : Byte) : (halfOf hi lo).toNat = hi.toNat * 256 + lo.toNat := by
  have hdiv : (halfOf hi lo).toNat / 256 = hi.toNat := by rw [← toNat_highByte, highByte_halfOf]
  have hmod : (halfOf hi lo).toNat % 256 = lo.toNat := by rw [← toNat_lowByte, lowByte_halfOf]
  omega

/-! ### Arming and scanning -/

/-- Settles O19: RX_REQ runs at a disarmed engine, and an armed one holds the word. -/
theorem rxReqArmsTheReceiver : Obligations.RxReqArmsTheReceiver :=
  ⟨fun _ _ ha hc => ⟨_, exec_rxReq_of_disarmed ha hc, rfl⟩, fun _ c ha => decode_rxReq_armed ha c⟩

/-- Settles O20: the CRC register after the start marker is 0xE8. -/
theorem startMarkerBeginsCandidate : Obligations.StartMarkerBeginsCandidate := by
  intro s ha hst
  rw [← crc8Update_startMarker]
  exact perform_of_selects (by simp [selects, Instr.wellFormed, ha, hst])

/-- Settles O21: a byte that is no start marker selects RX_WS_SKIP, which answers the state it was given. -/
theorem otherBytesAreSkipped : Obligations.OtherBytesAreSkipped := by
  intro s b ha hst hb
  exact perform_of_selects (by simpa [selects, Instr.wellFormed, Config.startMarker, ha, hst] using hb)

/-! ### The header -/

theorem exec_rxLenLow {s : State} (ha : s.rxArmed = true) (hst : s.rxSt = .lenLow) (b : Byte) :
    exec (.rxLenLow b) s = .next
      { s with rxLen := halfOf (highByte s.rxLen) b, rxHcrc := crc8Update s.rxHcrc b, rxSt := .lenHigh } :=
  perform_of_selects (by simp [selects, Instr.wellFormed, ha, hst])

theorem exec_rxLenHigh {s : State} (ha : s.rxArmed = true) (hst : s.rxSt = .lenHigh) (b : Byte) :
    exec (.rxLenHigh b) s = .next
      { s with rxLen := halfOf b (lowByte s.rxLen), rxHcrc := crc8Update s.rxHcrc b, rxSt := .hdrCrc } :=
  perform_of_selects (by simp [selects, Instr.wellFormed, ha, hst])

/-- Settles O22: each operation replaces one byte of the length and keeps the other. -/
theorem lengthBytesAreTaken : Obligations.LengthBytesAreTaken := by
  refine ⟨fun s b ha hst => ⟨_, exec_rxLenLow ha hst b, rfl, ?_⟩,
    fun s b ha hst => ⟨_, exec_rxLenHigh ha hst b, rfl, ?_⟩⟩
  · rw [toNat_halfOf, toNat_highByte]
  · rw [toNat_halfOf, toNat_lowByte]

/-- Settles O23: the seed is the CRC of the header and the byte; where that byte is the header's CRC, the residue is
zero. -/
theorem headerCrcMatchSeedsFullCrc : Obligations.HeaderCrcMatchSeedsFullCrc := by
  refine fun s ha hst => ⟨perform_of_selects (by simp [selects, Instr.wellFormed, crcOk, ha, hst]), fun hcrc => ?_⟩
  rw [hcrc]
  exact crc8Block_header_crc s.rxLen

/-- Settles O24: each of the five is selected in its state on its word, and answers `State.abandon`. -/
theorem framingErrorsAbandonTheCandidate : Obligations.FramingErrorsAbandonTheCandidate := by
  rintro s b i ha (⟨rfl, hst, hb⟩ | ⟨rfl, hst, hb⟩ | ⟨rfl, hst, hb⟩ | ⟨rfl, hst, rfl, hlen⟩ | ⟨rfl, hst, hb⟩)
  · exact perform_of_selects (by simpa [selects, Instr.wellFormed, crcOk, ha, hst] using hb)
  · exact perform_of_selects (by simpa [selects, Instr.wellFormed, Config.dataStartMarker, ha, hst] using hb)
  · exact perform_of_selects (by simpa [selects, Instr.wellFormed, crcOk, ha, hst] using hb)
  · exact perform_of_selects (by simpa [selects, Instr.wellFormed, crcOk, lenOk, ha, hst, BitVec.lt_def] using hlen)
  · exact perform_of_selects (by simpa [selects, Instr.wellFormed, Config.stopMarker, ha, hst] using hb)

/-! ### The payload -/

/-- Settles O25: RX_DS_OK with a payload to come, RX_DS_OK0 with none, and the marker's CRC. -/
theorem dataStartMarkerOpensPayload : Obligations.DataStartMarkerOpensPayload := by
  refine ⟨fun s ha hst hlen => perform_of_selects ?_, fun s ha hst hlen => perform_of_selects ?_, by decide⟩
  · simpa [selects, Instr.wellFormed, ha, hst] using hlen
  · simp [selects, Instr.wellFormed, ha, hst, hlen]

/-- The state after a payload byte was counted, in PAYLOAD (R134). -/
theorem countPayload_of_payload {s : State} (hst : s.rxSt = .payload) (b : Byte) :
    s.countPayload b =
      { s with
        rxFcrc := crc8Update s.rxFcrc b
        rxIdx := s.rxIdx + 1
        rxSt := if s.rxIdx + 1 = s.rxLen then .fullCrc else .payload } := by
  simp [State.countPayload, lastPayloadByte, hst]

theorem exec_rxPayStore {s : State} (ha : s.rxArmed = true) (hst : s.rxSt = .payload) (hidx : s.rxIdx < s.rxCap)
    (hbuf : s.rxCap.toNat ≤ s.rxBufSize) (b : Byte) :
    exec (.rxPayStore b) s = .next ((s.rxBufWrite s.rxIdx b).countPayload b) :=
  (perform_of_selects (by simp [selects, Instr.wellFormed, idxWithin, ha, hst, hidx])).trans (withBuffer_of_le hbuf)

theorem exec_rxPayDrop {s : State} (ha : s.rxArmed = true) (hst : s.rxSt = .payload) (hidx : ¬ s.rxIdx < s.rxCap)
    (b : Byte) : exec (.rxPayDrop b) s = .next (s.countPayload b) :=
  perform_of_selects (by simpa [selects, Instr.wellFormed, idxWithin, ha, hst] using hidx)

/-- A store is read back at its index, but for a byte that races, and at no other address. -/
theorem read_rxBufWrite (s : State) (i : Half) (b : Byte) :
    (s.rxAddr i ∉ s.raced → (s.rxBufWrite i b).mem.read (s.rxAddr i) = b) ∧
      ∀ a, a ≠ s.rxAddr i → (s.rxBufWrite i b).mem.read a = s.mem.read a :=
  ⟨fun h => (Memory.read_put_same _ _ _).trans (s.storedByte_of_not_raced b h), fun _ h => Memory.read_put_other _ _ h⟩

/-- Settles O26: the byte is put at `RX_IDX` and counted. -/
theorem payloadByteIsStored : Obligations.PayloadByteIsStored := by
  intro s b ha hst hidx hbuf
  refine ⟨_, exec_rxPayStore ha hst hidx hbuf b, ?_, read_rxBufWrite s s.rxIdx b⟩
  rw [countPayload_of_payload (s := s.rxBufWrite s.rxIdx b) hst]
  rfl

/-- Settles O27: the byte is counted and nothing else. -/
theorem payloadByteIsDropped : Obligations.PayloadByteIsDropped := by
  intro s b ha hst hidx
  rw [exec_rxPayDrop ha hst (not_lt.mpr hidx), countPayload_of_payload hst]

/-! ### The end of a candidate -/

/-- Settles O28: a length up to the capacity selects RX_FC_OK. -/
theorem fullCrcMatchWaitsForStop : Obligations.FullCrcMatchWaitsForStop := by
  intro s ha hst hlen
  exact perform_of_selects (by simpa [selects, Instr.wellFormed, crcOk, lenOk, ha, hst, BitVec.le_def] using hlen)

theorem exec_rxStopOk {s : State} (ha : s.rxArmed = true) (hst : s.rxSt = .stop) :
    exec .rxStopOk s = .next (s.endRx .ok s.rxLen) :=
  perform_of_selects (by simp [selects, Instr.wellFormed, ha, hst])

/-- An OK response has status bits zero and carries its length (30_encoding.md R82). -/
theorem rxRespWord_ok_fields (len : Half) :
    (rxRespWord .ok len).extractLsb' 16 2 = 0 ∧ (rxRespWord .ok len).extractLsb' 0 16 = len := by
  have hstatus : (rxStatusCode .ok).setWidth 18 <<< 16 = 0#18 := by decide
  constructor
  · ext i hi
    simp [rxRespWord, hstatus]
  · ext i hi
    simp [rxRespWord, hstatus, hi, show i < 18 by omega]

/-- Settles O29: the engine answers OK with its length and is cleared. -/
theorem stopMarkerAcceptsTheFrame : Obligations.StopMarkerAcceptsTheFrame :=
  fun s ha hst => ⟨rxRespWord .ok s.rxLen, exec_rxStopOk ha hst, rxRespWord_ok_fields s.rxLen⟩

/-- Settles O30: the word of IO_ERROR with length 0 is 0x10000. -/
theorem sourceErrorEndsTheRequest : Obligations.SourceErrorEndsTheRequest := by
  intro s x ha
  have hword : rxRespWord .ioError 0 = 0x10000#18 := by decide
  rw [← hword]
  exact perform_of_selects (by simp [selects, Instr.wellFormed, ha])

end Sys2Proof.Machine
end

section
/-! How a request ends (41_rx_framer.md R142), and that no single-bit error makes a frame of a frame (R149). -/

namespace Sys2Proof.Machine

/-! ### The end of a request -/

/-- The operations that disarm an armed engine, and what each answers. -/
theorem exec_disarms {i : Instr} {s t : State} (h : exec i s = .next t) (ha : s.rxArmed = true)
    (hd : t.rxArmed = false) :
    i = .rxStopOk ∧ t = s.endRx .ok s.rxLen ∨ (∃ x, i = .rxIoerr x) ∧ t = s.endRx .ioError 0 ∨
      i = .reset ∧ t = s.applyReset := by
  have changed : t.rxArmed ≠ s.rxArmed := by simp [ha, hd]
  cases i
  case rxStopOk => exact .inl ⟨rfl, eq_of_perform h⟩
  case rxIoerr x => exact .inr (.inl ⟨⟨x, rfl⟩, eq_of_perform h⟩)
  case reset => exact .inr (.inr ⟨rfl, eq_of_perform ((exec_reset s).symm.trans h)⟩)
  case rxReq c =>
    rw [(le_and_eq_of_perform_withBuffer h).2] at hd
    cases hd
  case rxPayStore b => exact absurd (congrArg State.rxArmed (le_and_eq_of_perform_withBuffer h).2) changed
  all_goals exact absurd (congrArg State.rxArmed (eq_of_perform h)) changed

/-- A word taken away from where it is offered leaves the receive engine and its responses as they are. -/
theorem Takes.keeps_rx {s u : State} {w : PortWord} (h : Takes s w u) :
    u.rxPart = s.rxPart ∧ u.rxResps = s.rxResps := by
  cases h <;> exact ⟨rfl, rfl⟩

/-- A step that changes RX_ARMED is about an offered word that decodes, and is what that operation answers. -/
theorem exec_of_step_rxArmed_ne {s t : State} (h : step s = .next t) (ha : t.rxArmed ≠ s.rxArmed) :
    ∃ u w i, Takes s w u ∧ decode u.ctx w = .ok i ∧ exec i u = .next t := by
  cases step_eq_next h with
  | word w u ht ho =>
    rcases offer_eq_next ho with ⟨i, hd, he⟩ | ⟨-, rfl⟩
    · exact ⟨u, w, i, ht, hd, he⟩
    · have hwait : (u.wait w).rxArmed = u.rxArmed := by cases w <;> rfl
      exact absurd (hwait.trans (congrArg RxPart.rxArmed ht.keeps_rx.1)) ha
  | host e es hr he hs ht =>
    obtain ⟨m, p, q, r, n, c, rfl, -⟩ := runEvent_host he ht
    exact absurd rfl ha
  | quiet hr hs ht =>
    have hgoOn : s.goOn.rxArmed = s.rxArmed := by
      unfold State.goOn
      split <;> rfl
    exact absurd (ht ▸ hgoOn) ha
  | _ =>
    subst_vars
    exact absurd rfl ha

/-- Settles O48: the step is the operation of a taken word, and three operations disarm the engine. -/
theorem aRequestEndsInThreeWays : Obligations.ARequestEndsInThreeWays := by
  intro s t _ h ha hd
  obtain ⟨u, w, i, ht, hdec, he⟩ := exec_of_step_rxArmed_ne h (by simp [ha, hd])
  obtain ⟨hpart, hresps⟩ := ht.keeps_rx
  have harm : u.rxArmed = true := (congrArg RxPart.rxArmed hpart).trans ha
  have hlen : u.rxLen = s.rxLen := congrArg RxPart.rxLen hpart
  refine ⟨u, w, i, ht, hdec, ?_⟩
  rw [← hlen, ← hresps]
  rcases exec_disarms he harm hd with ⟨hi, rfl⟩ | ⟨hi, rfl⟩ | ⟨hi, rfl⟩
  · exact .inl ⟨hi, rfl, rfl⟩
  · exact .inr (.inl ⟨hi, rfl, rfl⟩)
  · exact .inr (.inr ⟨hi, rfl, rfl⟩)

/-! ### A frame with one byte changed -/

theorem crc8Update_injective_left (b : Byte) : Function.Injective fun c => crc8Update c b := fun _ _ h =>
  BitVec.xor_left_inj b |>.mp (crc8Shift_injective.iterate 8 h)

theorem crc8Update_injective_right (c : Byte) : Function.Injective (crc8Update c) := fun _ _ h =>
  BitVec.xor_right_inj c |>.mp (crc8Shift_injective.iterate 8 h)

theorem crc8Block_injective (l : List Byte) : Function.Injective fun c => crc8Block l c := by
  induction l with
  | nil => exact fun _ _ h => h
  | cons b l ih => exact fun _ _ h => crc8Update_injective_left b (ih h)

/-- A change of one byte changes the CRC. -/
theorem eq_getElem_of_crc8Block_set {l : List Byte} {k : Nat} (hk : k < l.length) {v c : Byte}
    (h : crc8Block (l.set k v) c = crc8Block l c) : v = l[k] := by
  induction l generalizing k c with
  | nil => simp at hk
  | cons b l ih =>
    cases k with
    | zero => exact crc8Update_injective_right c (crc8Block_injective l h)
    | succ k => exact ih (Nat.lt_of_succ_lt_succ hk) h

/-- The bytes of a frame but its last one have the CRC zero, and the last one is the stop marker (R76, R105). -/
theorem crc8Block_dropLast_of_isFrame {f : List Byte} (h : isFrame f = true) :
    crc8Block f.dropLast = 0 ∧ f.getLast? = some Config.stopMarker := by
  obtain ⟨p, -, rfl⟩ := exists_buildFrame_of_isFrame h
  have hsplit : buildFrame p = (buildFrame p).take (6 + p.length) ++ [Config.stopMarker] := by
    rw [take_buildFrame_fcrc]
    simp [buildFrame]
  rw [hsplit, List.dropLast_concat, List.getLast?_concat, take_buildFrame_fcrc, crc8Block_concat, crc8Update_self]
  exact ⟨rfl, rfl⟩

/-- Two frames that differ in one byte at most are equal: the stop marker is fixed, and the CRC over the others is. -/
theorem eq_getElem_of_isFrame_set {f : List Byte} {k : Nat} (hk : k < f.length) {v : Byte} (h : isFrame f = true)
    (hset : isFrame (f.set k v) = true) : v = f[k] := by
  obtain ⟨hcrc, hlast⟩ := crc8Block_dropLast_of_isFrame h
  obtain ⟨hcrc', hlast'⟩ := crc8Block_dropLast_of_isFrame hset
  by_cases hstop : k = f.length - 1
  · subst hstop
    simp only [List.getLast?_eq_getElem?, List.length_set] at hlast hlast'
    simp_all
  · have hk' : k < f.dropLast.length := by rw [List.length_dropLast]; omega
    have hdrop : (f.set k v).dropLast = f.dropLast.set k v := by simp [List.dropLast_eq_take, List.take_set]
    rw [hdrop, ← hcrc] at hcrc'
    simpa using eq_getElem_of_crc8Block_set hk' hcrc'

/-- Settles O10: the flipped byte is another one. -/
theorem singleBitFlipBreaksFrame : Obligations.SingleBitFlipBreaksFrame := by
  intro f k hk bit h
  refine Bool.eq_false_iff.mpr fun hflip => ?_
  have heq := eq_getElem_of_isFrame_set hk h hflip
  have hbit := congrArg (·.getLsbD bit.val) heq
  simp at hbit

end Sys2Proof.Machine
end

section
/-! A byte stream at the receive engine (41_rx_framer.md R144 to R150): what the armed engine does with one byte in each
of its states, with a sequence of bytes, and that a run over delivered bytes does the same. -/

namespace Sys2Proof.Machine

/-! ### The comparisons (10_state.md R34) -/

@[simp] theorem isStartMarker_iff {b : Byte} : isStartMarker b = true ↔ b = Config.startMarker := beq_iff_eq
@[simp] theorem isDataStartMarker_iff {b : Byte} : isDataStartMarker b = true ↔ b = Config.dataStartMarker := beq_iff_eq
@[simp] theorem isStopMarker_iff {b : Byte} : isStopMarker b = true ↔ b = Config.stopMarker := beq_iff_eq
@[simp] theorem crcOk_iff {b crc : Byte} : crcOk b crc = true ↔ b = crc := beq_iff_eq
@[simp] theorem lenOk_iff {len cap : Half} : lenOk len cap = true ↔ len ≤ cap := decide_eq_true_iff
@[simp] theorem idxWithin_iff {idx cap : Half} : idxWithin idx cap = true ↔ idx < cap := decide_eq_true_iff

/-! ### The candidate's part of the state -/

/-- `s` with other candidate registers (10_state.md R21 to R26). -/
def State.withCandidate (st : RxSt) (len idx : Half) (hcrc fcrc : Byte) (s : State) : State :=
  { s with rxSt := st, rxLen := len, rxIdx := idx, rxHcrc := hcrc, rxFcrc := fcrc }

/-- `s` with other memory and another record of buffer writes. -/
def State.withStores (m : Memory) (ws : List (Half × Byte)) (s : State) : State := { s with mem := m, rxBufWrs := ws }

section
variable (st : RxSt) (len idx : Half) (hcrc fcrc : Byte) (s : State)

@[simp] theorem State.withCandidate_rxLen : (s.withCandidate st len idx hcrc fcrc).rxLen = len := rfl
@[simp] theorem State.withCandidate_rxIdx : (s.withCandidate st len idx hcrc fcrc).rxIdx = idx := rfl
@[simp] theorem State.withCandidate_rxHcrc : (s.withCandidate st len idx hcrc fcrc).rxHcrc = hcrc := rfl
@[simp] theorem State.withCandidate_rxFcrc : (s.withCandidate st len idx hcrc fcrc).rxFcrc = fcrc := rfl
@[simp] theorem State.withCandidate_withCandidate (st' : RxSt) (len' idx' : Half) (hcrc' fcrc' : Byte) :
    (s.withCandidate st len idx hcrc fcrc).withCandidate st' len' idx' hcrc' fcrc' =
      s.withCandidate st' len' idx' hcrc' fcrc' := rfl

end

/-- Memory `m` is that of `s` after the payload bytes `p` came in at the indices from `i` on: those within capacity are
there, but for one that races (20_memory.md R66, U5; log 10), and no other byte has changed. -/
structure State.Stored (s : State) (i : Nat) (p : List Byte) (m : Memory) : Prop where
  inside : ∀ j (h : j < p.length), i + j < s.rxCap.toNat → s.rxBase + (i + j) ∉ s.raced →
    m.read (s.rxBase + (i + j)) = p[j]
  beside : ∀ a, (a < s.rxBase + i ∨ s.rxBase + min (i + p.length) s.rxCap.toNat ≤ a) → m.read a = s.mem.read a

/-! ### One byte -/

/-- What the armed engine answers on a byte of the source. -/
def State.takeByte (s : State) (b : Byte) : Result := exec (decodeSrc s.ctx (srcWord false b)) s

section
variable {s : State}

theorem takeByte_waitStart (ha : s.rxArmed = true) (hst : s.rxSt = .waitStart) (b : Byte) :
    s.takeByte b = .next (if b = Config.startMarker then s.withCandidate .lenLow 0 0 0xE8 0 else s) := by
  simp only [State.takeByte, decodeSrc_waitStart (k := s.ctx) hst, isStartMarker_iff]
  split_ifs with hb
  · exact startMarkerBeginsCandidate s ha hst
  · exact otherBytesAreSkipped s b ha hst hb

theorem takeByte_lenLow (ha : s.rxArmed = true) (hst : s.rxSt = .lenLow) (b : Byte) :
    s.takeByte b = .next
      (s.withCandidate .lenHigh (halfOf (highByte s.rxLen) b) s.rxIdx (crc8Update s.rxHcrc b) s.rxFcrc) := by
  rw [State.takeByte, decodeSrc_lenLow hst]
  exact exec_rxLenLow ha hst b

theorem takeByte_lenHigh (ha : s.rxArmed = true) (hst : s.rxSt = .lenHigh) (b : Byte) :
    s.takeByte b = .next
      (s.withCandidate .hdrCrc (halfOf b (lowByte s.rxLen)) s.rxIdx (crc8Update s.rxHcrc b) s.rxFcrc) := by
  rw [State.takeByte, decodeSrc_lenHigh hst]
  exact exec_rxLenHigh ha hst b

theorem takeByte_hdrCrc (ha : s.rxArmed = true) (hst : s.rxSt = .hdrCrc) (b : Byte) :
    s.takeByte b = .next
      (if b = s.rxHcrc then
        s.withCandidate .dataStart s.rxLen s.rxIdx s.rxHcrc (crc8Block (frameHeader s.rxLen ++ [b]))
      else s.abandon) := by
  simp only [State.takeByte, decodeSrc_hdrCrc (k := s.ctx) hst, crcOk_iff]
  split_ifs with hb
  · subst hb
    exact (headerCrcMatchSeedsFullCrc s ha hst).1
  · exact framingErrorsAbandonTheCandidate s b _ ha (.inl ⟨rfl, hst, hb⟩)

theorem takeByte_dataStart (ha : s.rxArmed = true) (hst : s.rxSt = .dataStart) (b : Byte) :
    s.takeByte b = .next
      (if b = Config.dataStartMarker then
        if s.rxLen = 0 then s.withCandidate .fullCrc s.rxLen s.rxIdx s.rxHcrc (crc8Update s.rxFcrc b)
        else s.withCandidate .payload s.rxLen 0 s.rxHcrc (crc8Update s.rxFcrc b)
      else s.abandon) := by
  obtain ⟨hpayload, hempty, -⟩ := dataStartMarkerOpensPayload
  simp only [State.takeByte, decodeSrc_dataStart (k := s.ctx) hst, isDataStartMarker_iff]
  split_ifs with hb hlen
  · subst hb
    exact hempty s ha hst hlen
  · subst hb
    exact hpayload s ha hst hlen
  · exact framingErrorsAbandonTheCandidate s b _ ha (.inr (.inl ⟨rfl, hst, hb⟩))

/-- A payload byte is counted, and stored where it is within capacity. -/
theorem takeByte_payload (ha : s.rxArmed = true) (hst : s.rxSt = .payload) (hbuf : s.rxCap.toNat ≤ s.rxBufSize)
    (b : Byte) :
    ∃ m ws, s.Stored s.rxIdx.toNat [b] m ∧
      s.takeByte b = .next
        ((s.withStores m ws).withCandidate (if s.rxIdx + 1 = s.rxLen then .fullCrc else .payload) s.rxLen
          (s.rxIdx + 1) s.rxHcrc (crc8Update s.rxFcrc b)) := by
  simp only [State.takeByte, decodeSrc_payload (k := s.ctx) hst, idxWithin_iff]
  by_cases hidx : s.rxIdx < s.rxCap
  · obtain ⟨hread, hother⟩ := read_rxBufWrite s s.rxIdx b
    refine ⟨(s.rxBufWrite s.rxIdx b).mem, (s.rxBufWrite s.rxIdx b).rxBufWrs, ⟨fun j hj _ hr => ?_, fun a h => ?_⟩, ?_⟩
    · obtain rfl : j = 0 := by simpa using hj
      exact hread hr
    · refine hother a ?_
      have hlt : s.rxIdx.toNat < s.rxCap.toNat := hidx
      simp only [State.rxAddr, List.length_singleton] at h ⊢
      omega
    · rw [if_pos hidx, exec_rxPayStore ha hst hidx hbuf, countPayload_of_payload (s := s.rxBufWrite s.rxIdx b) hst]
      rfl
  · refine ⟨s.mem, s.rxBufWrs, ⟨fun j hj hcap _ => ?_, fun _ _ => rfl⟩, ?_⟩
    · obtain rfl : j = 0 := by simpa using hj
      exact absurd hcap hidx
    · rw [if_neg hidx, exec_rxPayDrop ha hst hidx, countPayload_of_payload hst]
      rfl

theorem takeByte_fullCrc (ha : s.rxArmed = true) (hst : s.rxSt = .fullCrc) (b : Byte) :
    s.takeByte b = .next
      (if b = s.rxFcrc ∧ s.rxLen ≤ s.rxCap then s.withCandidate .stop s.rxLen s.rxIdx s.rxHcrc s.rxFcrc
      else s.abandon) := by
  simp only [State.takeByte, decodeSrc_fullCrc (k := s.ctx) hst, crcOk_iff, lenOk_iff]
  by_cases hb : b = s.rxFcrc
  · subst hb
    simp only [true_and, if_true]
    split_ifs with hlen
    · exact fullCrcMatchWaitsForStop s ha hst hlen
    · exact framingErrorsAbandonTheCandidate s _ _ ha (.inr (.inr (.inr (.inl ⟨rfl, hst, rfl, not_le.mp hlen⟩))))
  · rw [if_neg hb, if_neg (hb ∘ And.left)]
    exact framingErrorsAbandonTheCandidate s b _ ha (.inr (.inr (.inl ⟨rfl, hst, hb⟩)))

theorem takeByte_stop (ha : s.rxArmed = true) (hst : s.rxSt = .stop) (b : Byte) :
    s.takeByte b = .next (if b = Config.stopMarker then s.endRx .ok s.rxLen else s.abandon) := by
  simp only [State.takeByte, decodeSrc_stop (k := s.ctx) hst, isStopMarker_iff]
  split_ifs with hb
  · exact exec_rxStopOk ha hst
  · exact framingErrorsAbandonTheCandidate s b _ ha (.inr (.inr (.inr (.inr ⟨rfl, hst, hb⟩))))

end

/-- A byte is an operation of the receive engine. -/
theorem takeByte_rxMove {s t : State} {b : Byte} (ha : s.rxArmed = true) (h : s.takeByte b = .next t) :
    RxMove (decodeSrc s.ctx (srcWord false b)) s t :=
  exec_rxMove (isReceiveOp_of_encode_src (decodeSrc_sound (k := s.ctx) ha _).1) h

/-- With the buffer that its capacity asks for, the armed engine takes every byte. -/
theorem exists_takeByte {s : State} (ha : s.rxArmed = true) (hbuf : s.rxCap.toNat ≤ s.rxBufSize) (b : Byte) :
    ∃ t, s.takeByte b = .next t := by
  obtain ⟨hw, hsel⟩ := decodeSrc_sound (k := s.ctx) ha (srcWord false b)
  refine exec_of_selects hsel (fun c hi => ?_) (fun _ _ => hbuf)
  simp [hi, encode] at hw

theorem offer_byte {s : State} (ha : s.rxArmed = true) (b : Byte) :
    offer (.src (srcWord false b)) s = s.takeByte b :=
  offer_of_decode_ok (decode_src_armed (k := s.ctx) ha _)

/-- No operation of the receive engine depends on the script. -/
theorem exec_script {i : Instr} {s t : State} (hi : isReceiveOp i = true) (h : exec i s = .next t) (es : List Event) :
    exec i { s with script := es } = .next { t with script := es } := by
  have hsel := selects_of_exec_eq_next h
  cases i <;> simp only [isReceiveOp, Bool.false_eq_true] at hi
  case rxReq c =>
    obtain ⟨hc, rfl⟩ := le_and_eq_of_perform_withBuffer h
    exact (perform_of_selects hsel).trans (withBuffer_of_le hc)
  case rxPayStore b =>
    obtain ⟨hc, rfl⟩ := le_and_eq_of_perform_withBuffer h
    exact (perform_of_selects hsel).trans (withBuffer_of_le hc)
  all_goals
    obtain rfl := eq_of_perform h
    exact perform_of_selects hsel

theorem takeByte_script {s t : State} {b : Byte} (ha : s.rxArmed = true) (h : s.takeByte b = .next t)
    (es : List Event) : State.takeByte { s with script := es } b = .next { t with script := es } :=
  exec_script (isReceiveOp_of_encode_src (decodeSrc_sound (k := s.ctx) ha _).1) h es

/-! ### What the bytes of a request leave alone -/

/-- The fields that a request reads and its bytes do not write. -/
structure Setting where
  resetDone : Bool
  rxCap : Half
  rxBufSize : Nat
  rxBase : Nat
  raced : List Nat
  source : List SrcWord
  txSt : TxSt
  txReqs : List TxReqWord

def State.setting (s : State) : Setting :=
  ⟨s.resetDone, s.rxCap, s.rxBufSize, s.rxBase, s.raced, s.source, s.txSt, s.txReqs⟩

theorem takeByte_setting {s t : State} {b : Byte} (ha : s.rxArmed = true) (h : s.takeByte b = .next t) :
    t.setting = s.setting := by
  cases takeByte_rxMove ha h with
  | arm c hi hd hc ht => simp [ha] at hd
  | _ =>
    subst_vars
    rfl

/-- The buffer is as long as the capacity asks in every state of a request. -/
theorem buffer_of_setting {s t : State} (h : t.setting = s.setting) (hbuf : s.rxCap.toNat ≤ s.rxBufSize) :
    t.rxCap.toNat ≤ t.rxBufSize := by
  have hcap : t.rxCap = s.rxCap := congrArg Setting.rxCap h
  have hsize : t.rxBufSize = s.rxBufSize := congrArg Setting.rxBufSize h
  rwa [hcap, hsize]

/-- While the request goes on nothing is answered. -/
theorem takeByte_rxResps {s t : State} {b : Byte} (ha : s.rxArmed = true) (h : s.takeByte b = .next t)
    (harm : t.rxArmed = true) : t.rxResps = s.rxResps := by
  cases takeByte_rxMove ha h with
  | arm c hi hd hc ht => simp [ha] at hd
  | finish x n _ ht => simp [ht] at harm
  | _ =>
    subst_vars
    rfl

/-! ### A sequence of bytes -/

/-- `Reads s bs t`: the engine `s` takes the bytes `bs`, each of them armed, and is then in `t`. -/
inductive Reads : State → List Byte → State → Prop where
  | nil (s : State) : Reads s [] s
  | cons {s u t : State} {b : Byte} {bs : List Byte} (ha : s.rxArmed = true) (hb : s.takeByte b = .next u)
      (hr : Reads u bs t) : Reads s (b :: bs) t

theorem Reads.single {s t : State} {b : Byte} (ha : s.rxArmed = true) (hb : s.takeByte b = .next t) :
    Reads s [b] t :=
  .cons ha hb (.nil t)

theorem reads_append {s t : State} {bs cs : List Byte} :
    Reads s (bs ++ cs) t ↔ ∃ u, Reads s bs u ∧ Reads u cs t := by
  induction bs generalizing s with
  | nil => exact ⟨fun h => ⟨s, .nil s, h⟩, fun ⟨_, .nil _, h⟩ => h⟩
  | cons b bs ih =>
    constructor
    · rintro (_ | ⟨ha, hb, hr⟩)
      obtain ⟨u, hu, ht⟩ := ih.mp hr
      exact ⟨u, .cons ha hb hu, ht⟩
    · rintro ⟨u, _ | ⟨ha, hb, hr⟩, ht⟩
      exact .cons ha hb (ih.mpr ⟨u, hr, ht⟩)

theorem Reads.append {s u t : State} {bs cs : List Byte} (h : Reads s bs u) (h' : Reads u cs t) :
    Reads s (bs ++ cs) t :=
  reads_append.mpr ⟨u, h, h'⟩

theorem reads_concat {s t : State} {bs : List Byte} {b : Byte} :
    Reads s (bs ++ [b]) t ↔ ∃ u, Reads s bs u ∧ u.rxArmed = true ∧ u.takeByte b = .next t := by
  rw [reads_append]
  refine exists_congr fun u => and_congr_right fun _ => ⟨?_, fun ⟨ha, hb⟩ => .single ha hb⟩
  rintro (_ | ⟨ha, hb, _ | _⟩)
  exact ⟨ha, hb⟩

theorem Reads.script {s t : State} {bs : List Byte} (h : Reads s bs t) (es : List Event) :
    Reads { s with script := es } bs { t with script := es } := by
  induction h with
  | nil s => exact .nil _
  | cons ha hb _ ih => exact .cons ha (takeByte_script ha hb es) ih

theorem Reads.unique {s t t' : State} {bs : List Byte} (h : Reads s bs t) (h' : Reads s bs t') : t = t' := by
  induction h with
  | nil s =>
    cases h'
    rfl
  | cons ha hb _ ih =>
    cases h' with
    | cons _ hb' hr' =>
      rw [hb] at hb'
      cases hb'
      exact ih hr'

theorem Reads.setting_eq {s t : State} {bs : List Byte} (h : Reads s bs t) : t.setting = s.setting := by
  induction h with
  | nil s => rfl
  | cons ha hb _ ih => exact ih.trans (takeByte_setting ha hb)

theorem Reads.rxArmed_of_rxArmed {s t : State} {bs : List Byte} (h : Reads s bs t) (harm : t.rxArmed = true) :
    s.rxArmed = true := by
  cases h with
  | nil => exact harm
  | cons ha hb hr => exact ha

theorem Reads.rxResps_eq {s t : State} {bs : List Byte} (h : Reads s bs t) (harm : t.rxArmed = true) :
    t.rxResps = s.rxResps := by
  induction h with
  | nil s => rfl
  | cons ha hb hr ih => exact (ih harm).trans (takeByte_rxResps ha hb (hr.rxArmed_of_rxArmed harm))

/-! ### A run over delivered bytes -/

/-- The script delivers `bs` and goes on with `rest`, and no other word is in the way while the engine is armed. -/
structure State.Delivers (s : State) (bs : List Byte) (rest : List Event) : Prop where
  afterReset : s.resetDone = true
  sourceEmpty : s.source = []
  noTxReq : s.txSt = .waitSink ∨ s.txReqs = []
  delivery : s.script = deliver bs ++ rest

theorem State.Listening.delivers {s : State} {bs : List Byte} {rest : List Event} (h : s.Listening bs rest) :
    s.Delivers bs rest :=
  ⟨h.afterReset, h.sourceEmpty, h.noTxReq, h.delivery⟩

/-- The next step takes the byte delivered next, and the script then delivers the others. -/
theorem State.Delivers.step {s u : State} {b : Byte} {bs : List Byte} {rest : List Event}
    (h : s.Delivers (b :: bs) rest) (ha : s.rxArmed = true) (hb : s.takeByte b = .next u) :
    step s = .next { u with script := deliver bs ++ rest } ∧
      State.Delivers { u with script := deliver bs ++ rest } bs rest := by
  have htakes : Takes s (.src (srcWord false b)) { s with script := deliver bs ++ rest } :=
    .script _ _ h.afterReset ⟨.inl ha, h.noTxReq⟩ (by simp) (by simp [joinsSource, h.sourceEmpty]) rfl h.delivery
  have hset := takeByte_setting ha hb
  simp only [State.setting, Setting.mk.injEq] at hset
  obtain ⟨hdone, -, -, -, -, hsource, htxSt, htxReqs⟩ := hset
  refine ⟨?_, hdone.trans h.afterReset, hsource.trans h.sourceEmpty, ?_, rfl⟩
  · have hoffer := offer_byte (s := { s with script := deliver bs ++ rest }) ha b
    exact (step_of_takes htakes).trans (hoffer.trans (takeByte_script ha hb _))
  · rw [htxSt, htxReqs]
    exact h.noTxReq

theorem run_succ {s u : State} (n : Nat) (h : step s = .next u) :
    Sys2Proof.core.run (n + 1) s = Sys2Proof.core.run n u := by
  have hcore : Sys2Proof.core.step s = .next u := h
  simp only [Host.Core.run, hcore]

/-- A run over the delivered bytes reads them. -/
theorem run_of_reads {s t : State} {bs : List Byte} {rest : List Event} (h : s.Delivers bs rest)
    (hr : Reads s bs t) : Sys2Proof.core.run bs.length s = .next { t with script := rest } := by
  induction bs generalizing s t with
  | nil =>
    cases hr
    have hscript : s.script = rest := h.delivery
    rw [← hscript]
    rfl
  | cons b bs ih =>
    cases hr with
    | cons ha hb hr =>
      obtain ⟨hstep, hnext⟩ := h.step ha hb
      rw [List.length_cons, run_succ _ hstep]
      exact (ih hnext (hr.script _) :)

/-- A run whose engine is armed at each of the delivered bytes reads them. -/
theorem exists_reads_of_run {s : State} {bs : List Byte} {rest : List Event} (h : s.Delivers bs rest)
    (hbuf : s.rxCap.toNat ≤ s.rxBufSize)
    (harm : ∀ k u, k < bs.length → Sys2Proof.core.run k s = .next u → u.rxArmed = true) : ∃ t, Reads s bs t := by
  induction bs generalizing s with
  | nil => exact ⟨s, .nil s⟩
  | cons b bs ih =>
    have ha := harm 0 s (Nat.succ_pos _) rfl
    obtain ⟨u, hu⟩ := exists_takeByte ha hbuf b
    obtain ⟨hstep, hnext⟩ := h.step ha hu
    have hbuf' : u.rxCap.toNat ≤ u.rxBufSize := buffer_of_setting (takeByte_setting ha hu) hbuf
    obtain ⟨t, ht⟩ := ih hnext hbuf' fun k v hk hv =>
      harm (k + 1) v (Nat.succ_lt_succ hk) ((run_succ k hstep).trans hv)
    exact ⟨_, .cons ha hu (ht.script u.script)⟩

end Sys2Proof.Machine
end

section
/-! Frames in a byte stream (41_rx_framer.md R144 to R150): a frame within capacity is accepted, one beyond it is read
to its end and abandoned, and what is accepted is a frame. -/

namespace Sys2Proof.Machine

/-! ### Noise and headers -/

/-- Bytes without the start marker are skipped (R124). -/
theorem reads_noise {s : State} (ha : s.rxArmed = true) (hst : s.rxSt = .waitStart) {noise : List Byte}
    (h : Config.startMarker ∉ noise) : Reads s noise s := by
  induction noise with
  | nil => exact .nil s
  | cons b noise ih =>
    obtain ⟨hb, hnoise⟩ := List.ne_and_not_mem_of_not_mem_cons h
    refine .cons ha ?_ (ih hnoise)
    rw [takeByte_waitStart ha hst, if_neg hb.symm]

/-- The header CRC, byte by byte: 0xE8 after the start marker (R123), then the two length bytes. -/
theorem crc8Block_frameHeader (len : Half) :
    crc8Block (frameHeader len) = crc8Update (crc8Update 0xE8 (lowByte len)) (highByte len) := by
  rw [← crc8Update_startMarker]
  rfl

/-- A start marker and two length bytes, whatever they are, are taken as a header (R123, R125, R126). -/
theorem reads_frameHeader {s : State} (ha : s.rxArmed = true) (hst : s.rxSt = .waitStart) (len : Half) :
    Reads s (frameHeader len) (s.withCandidate .hdrCrc len 0 (crc8Block (frameHeader len)) 0) := by
  have hstart := takeByte_waitStart ha hst Config.startMarker
  have hlow := takeByte_lenLow (s := s.withCandidate .lenLow 0 0 0xE8 0) ha rfl (lowByte len)
  have hhigh := takeByte_lenHigh (s := s.withCandidate .lenHigh (halfOf (highByte 0) (lowByte len)) 0
    (crc8Update 0xE8 (lowByte len)) 0) ha rfl (highByte len)
  rw [if_pos rfl] at hstart
  simp only [State.withCandidate_withCandidate, State.withCandidate_rxLen, State.withCandidate_rxIdx,
    State.withCandidate_rxHcrc, State.withCandidate_rxFcrc, lowByte_halfOf, halfOf_highByte_lowByte,
    ← crc8Block_frameHeader] at hlow hhigh
  exact .cons ha hstart (.cons ha hlow (.single ha hhigh))

/-- The five bytes before a payload: the header CRC and the data-start marker follow the header (R127, R129, R130). -/
theorem reads_framePrefix {s : State} (ha : s.rxArmed = true) (hst : s.rxSt = .waitStart) (len : Half) :
    Reads s (framePrefix len)
      (s.withCandidate (if len = 0 then .fullCrc else .payload) len 0 (crc8Block (frameHeader len))
        (crc8Block (framePrefix len))) := by
  have hcrc := takeByte_hdrCrc (s := s.withCandidate .hdrCrc len 0 (crc8Block (frameHeader len)) 0) ha rfl
    (crc8Block (frameHeader len))
  have hdata := takeByte_dataStart (s := s.withCandidate .dataStart len 0 (crc8Block (frameHeader len)) 0) ha rfl
    Config.dataStartMarker
  simp only [State.withCandidate_withCandidate, State.withCandidate_rxLen, State.withCandidate_rxIdx,
    State.withCandidate_rxHcrc, State.withCandidate_rxFcrc, if_true, crc8Block_header_crc, ← crc8Block_framePrefix len]
    at hcrc hdata
  refine (reads_frameHeader ha hst len).append (.cons ha hcrc (.single ha ?_))
  rw [hdata]
  split_ifs <;> rfl

/-! ### The payload -/

/-- One payload byte and then the others. -/
theorem State.Stored.cons {s u : State} {i : Nat} {b : Byte} {p : List Byte} {m : Memory}
    (hp : u.Stored (i + 1) p m) (h : s.Stored i [b] u.mem) (hu : u.setting = s.setting) : s.Stored i (b :: p) m := by
  simp only [State.setting, Setting.mk.injEq] at hu
  obtain ⟨-, hcap, -, hbase, hraced, -⟩ := hu
  obtain ⟨hin, hout⟩ := h
  obtain ⟨hin', hout'⟩ := hp
  rw [hcap, hbase, hraced] at hin'
  rw [hcap, hbase] at hout'
  refine ⟨fun j hj hc hr => ?_, fun a h => ?_⟩
  · cases j with
    | zero =>
      rw [hout' _ (by omega)]
      exact hin 0 (by simp) hc hr
    | succ j =>
      rw [show i + (j + 1) = i + 1 + j by omega] at hc hr ⊢
      exact hin' j (by simpa using hj) hc hr
  · simp only [List.length_cons] at h
    rw [hout' a (by omega), hout a (by simp only [List.length_singleton]; omega)]

/-- The payload bytes of a candidate are counted up to its length, and stored so far as the capacity goes. -/
theorem reads_payload {s : State} {p : List Byte} (ha : s.rxArmed = true) (hst : s.rxSt = .payload)
    (hbuf : s.rxCap.toNat ≤ s.rxBufSize) (hp : p ≠ []) (hlen : s.rxIdx.toNat + p.length = s.rxLen.toNat) :
    ∃ m ws, s.Stored s.rxIdx.toNat p m ∧
      Reads s p
        ((s.withStores m ws).withCandidate .fullCrc s.rxLen s.rxLen s.rxHcrc (crc8Block p s.rxFcrc)) := by
  induction p generalizing s with
  | nil => exact absurd rfl hp
  | cons b p ih =>
    obtain ⟨m, ws, hstored, htake⟩ := takeByte_payload ha hst hbuf b
    rw [List.length_cons] at hlen
    cases p with
    | nil =>
      have hlast : s.rxIdx + 1 = s.rxLen := by
        simp only [List.length_nil] at hlen
        bv_omega
      rw [if_pos hlast, hlast] at htake
      exact ⟨m, ws, hstored, .single ha htake⟩
    | cons c p =>
      rw [List.length_cons] at hlen
      have hbound := s.rxLen.isLt
      have hmore : s.rxIdx + 1 ≠ s.rxLen := by bv_omega
      have hidx : (s.rxIdx + 1).toNat = s.rxIdx.toNat + 1 := by bv_omega
      rw [if_neg hmore] at htake
      obtain ⟨m', ws', hstored', hreads⟩ := ih (s := (s.withStores m ws).withCandidate .payload s.rxLen
        (s.rxIdx + 1) s.rxHcrc (crc8Update s.rxFcrc b)) ha rfl hbuf (by simp) (by
          simp only [State.withCandidate_rxIdx, State.withCandidate_rxLen, hidx, List.length_cons]
          omega)
      rw [State.withCandidate_rxIdx, hidx] at hstored'
      exact ⟨m', ws', hstored'.cons hstored rfl, .cons ha htake hreads⟩

theorem State.stored_nil (s : State) (i : Nat) : s.Stored i [] s.mem :=
  ⟨fun j h => absurd h (Nat.not_lt_zero j), fun _ _ => rfl⟩

/-- Five bytes and a payload, as many bytes as the header declares: the engine waits for the full CRC of what it has
read. -/
theorem reads_frameBody {s : State} {p : List Byte} {len : Half} (ha : s.rxArmed = true) (hst : s.rxSt = .waitStart)
    (hbuf : s.rxCap.toNat ≤ s.rxBufSize) (hlen : p.length = len.toNat) :
    ∃ m ws hcrc, s.Stored 0 p m ∧
      Reads s (framePrefix len ++ p)
        ((s.withStores m ws).withCandidate .fullCrc len len hcrc (crc8Block (framePrefix len ++ p))) := by
  have hprefix := reads_framePrefix ha hst len
  by_cases hnil : p = []
  · subst hnil
    obtain rfl : len = 0 := BitVec.eq_of_toNat_eq hlen.symm
    rw [if_pos rfl] at hprefix
    rw [List.append_nil]
    exact ⟨s.mem, s.rxBufWrs, _, s.stored_nil 0, hprefix⟩
  · have hne : len ≠ 0 := fun h => hnil (List.length_eq_zero_iff.mp (by simpa [h] using hlen))
    rw [if_neg hne] at hprefix
    obtain ⟨m, ws, hstored, hreads⟩ := reads_payload (s := s.withCandidate .payload len 0
      (crc8Block (frameHeader len)) (crc8Block (framePrefix len))) ha rfl hbuf hnil (by
        rw [State.withCandidate_rxIdx, State.withCandidate_rxLen, hlen]
        exact Nat.zero_add _)
    have hcrc : crc8Block (framePrefix len ++ p) = crc8Block p (crc8Block (framePrefix len)) := List.foldl_append
    rw [hcrc]
    exact ⟨m, ws, _, ⟨hstored.inside, hstored.beside⟩, hprefix.append hreads⟩

/-! ### Whole frames -/

/-- The two bytes after a payload, where the length is within the capacity: the request ends (R136, R139). -/
theorem reads_trailer_within {s : State} (ha : s.rxArmed = true) (hst : s.rxSt = .fullCrc) (hcap : s.rxLen ≤ s.rxCap) :
    Reads s [s.rxFcrc, Config.stopMarker] (s.endRx .ok s.rxLen) := by
  have hfull := takeByte_fullCrc ha hst s.rxFcrc
  have hstop := takeByte_stop (s := s.withCandidate .stop s.rxLen s.rxIdx s.rxHcrc s.rxFcrc) ha rfl Config.stopMarker
  rw [if_pos ⟨rfl, hcap⟩] at hfull
  rw [if_pos rfl] at hstop
  exact .cons ha hfull (.single ha hstop)

/-- The same two bytes where the length is beyond the capacity: the candidate is abandoned, and the stop marker is
skipped (R138). -/
theorem reads_trailer_beyond {s : State} (ha : s.rxArmed = true) (hst : s.rxSt = .fullCrc)
    (hcap : ¬ s.rxLen ≤ s.rxCap) : Reads s [s.rxFcrc, Config.stopMarker] s.abandon := by
  have hfull := takeByte_fullCrc ha hst s.rxFcrc
  rw [if_neg (hcap ∘ And.right)] at hfull
  exact .cons ha hfull (reads_noise (s := s.abandon) ha rfl (by decide))

/-- A length up to 65535 is a 16-bit length, the one that the built frame declares. -/
theorem exists_len_of_length_le {p : List Byte} (h : p.length ≤ 65535) :
    ∃ len : Half, p.length = len.toNat ∧ BitVec.ofNat 16 p.length = len := by
  refine ⟨BitVec.ofNat 16 p.length, ?_, rfl⟩
  rw [← declaredLen_buildFrame, toNat_declaredLen_buildFrame h]

theorem buildFrame_eq_body_append {p : List Byte} {len : Half} (h : BitVec.ofNat 16 p.length = len) :
    buildFrame p = framePrefix len ++ p ++ [crc8Block (framePrefix len ++ p), Config.stopMarker] := by
  rw [← h]
  rfl

/-- A frame within capacity is accepted on its last byte. -/
theorem reads_frame_within {s : State} {p : List Byte} (ha : s.rxArmed = true) (hst : s.rxSt = .waitStart)
    (hbuf : s.rxCap.toNat ≤ s.rxBufSize) (hp : p.length ≤ s.rxCap.toNat) :
    ∃ m ws, s.Stored 0 p m ∧
      Reads s (buildFrame p) ((s.withStores m ws).endRx .ok (BitVec.ofNat 16 p.length)) := by
  obtain ⟨len, hlen, hofNat⟩ := exists_len_of_length_le (p := p) (by omega)
  have hcap : len ≤ s.rxCap := by rwa [BitVec.le_def, ← hlen]
  obtain ⟨m, ws, hcrc, hstored, hbody⟩ := reads_frameBody ha hst hbuf hlen
  have htrailer := reads_trailer_within (s := (s.withStores m ws).withCandidate .fullCrc len len hcrc
    (crc8Block (framePrefix len ++ p))) ha rfl hcap
  rw [buildFrame_eq_body_append hofNat, hofNat]
  exact ⟨m, ws, hstored, hbody.append htrailer⟩

/-- A frame beyond the capacity is read to its end and abandoned (R148). -/
theorem reads_frame_beyond {s : State} {p : List Byte} (ha : s.rxArmed = true) (hst : s.rxSt = .waitStart)
    (hbuf : s.rxCap.toNat ≤ s.rxBufSize) (hcap : s.rxCap.toNat < p.length) (hp : p.length ≤ 65535) :
    ∃ m ws, s.Stored 0 p m ∧ Reads s (buildFrame p) (s.withStores m ws).abandon := by
  obtain ⟨len, hlen, hofNat⟩ := exists_len_of_length_le hp
  have hbeyond : ¬ len ≤ s.rxCap := by
    rw [BitVec.le_def, ← hlen]
    omega
  obtain ⟨m, ws, hcrc, hstored, hbody⟩ := reads_frameBody ha hst hbuf hlen
  have htrailer := reads_trailer_beyond (s := (s.withStores m ws).withCandidate .fullCrc len len hcrc
    (crc8Block (framePrefix len ++ p))) ha rfl hbeyond
  rw [buildFrame_eq_body_append hofNat]
  exact ⟨m, ws, hstored, hbody.append htrailer⟩

/-! ### Runs over frames -/

/-- Settles O56: the run reads the frame, which is within capacity. -/
theorem roundTrip : Obligations.RoundTrip := by
  intro s p rest h hp
  obtain ⟨m, ws, ⟨hin, hout⟩, hreads⟩ := reads_frame_within h.armed h.scanning h.buffer hp
  have hrun := run_of_reads h.delivers hreads
  rw [length_buildFrame] at hrun
  refine ⟨_, hrun, rfl, rfl, rfl, rfl, fun i hi hr => ?_, fun a ha => hout a (by omega)⟩
  simp only [Nat.zero_add] at hin
  exact hin i hi (by omega) hr

/-- Settles O58: the noise is skipped, and what follows is a frame within capacity. -/
theorem frameAfterNoiseIsReturned : Obligations.FrameAfterNoiseIsReturned := by
  intro s noise f rest h hnoise hf
  simp only [acceptable, Bool.and_eq_true, decide_eq_true_eq] at hf
  obtain ⟨hframe, hcap⟩ := hf
  obtain ⟨p, hp, rfl⟩ := exists_buildFrame_of_isFrame hframe
  rw [BitVec.le_def, toNat_declaredLen_buildFrame hp] at hcap
  obtain ⟨m, ws, -, hreads⟩ := reads_frame_within h.armed h.scanning h.buffer hcap
  have hrun := run_of_reads h.delivers ((reads_noise h.armed h.scanning hnoise).append hreads)
  rw [List.length_append] at hrun
  rw [declaredLen_buildFrame]
  exact ⟨_, hrun, rfl, rfl, rfl⟩

/-- Settles O59: the run reads the frame, which is beyond the capacity. -/
theorem oversizeFrameIsRejectedLate : Obligations.OversizeFrameIsRejectedLate := by
  intro s p rest h hcap hp
  obtain ⟨m, ws, ⟨hin, hout⟩, hreads⟩ := reads_frame_beyond h.armed h.scanning h.buffer hcap hp
  have hrun := run_of_reads h.delivers hreads
  rw [length_buildFrame] at hrun
  refine ⟨_, hrun, h.armed, rfl, rfl, rfl, fun i hi hc hr => ?_, fun a ha => hout a (by omega)⟩
  simp only [Nat.zero_add] at hin
  exact hin i hi hc hr

/-- Frame A of 95_test_vectors.md. -/
theorem buildFrame_0x41 : buildFrame [0x41] = [0xFA, 0x01, 0x00, 0xFE, 0xFB, 0x41, 0x43, 0xFE] := by
  have hlow : crc8Update 0xE8 (lowByte 1) = 0x91 := by decide
  have hheader : crc8Block (frameHeader 1) = 0xFE := by
    rw [crc8Block_frameHeader, hlow]
    decide
  have hmarker : crc8Update 0 Config.dataStartMarker = 0xEF := by decide
  have hfull : crc8Block (framePrefix 1 ++ [0x41]) = 0x43 := by
    rw [crc8Block_concat, crc8Block_framePrefix, hmarker]
    decide
  have hlen : BitVec.ofNat 16 [(0x41 : Byte)].length = 1 := rfl
  rw [buildFrame_eq, hlen, hheader, hfull]
  rfl

/-- The stray byte, the start marker and the low length byte are a header whose CRC is not the next byte, 0x00. -/
theorem crc8Block_frameHeader_0x01FA_ne : (0x00 : Byte) ≠ crc8Block (frameHeader 0x01FA) := by
  have hlow : crc8Update 0xE8 (lowByte 0x01FA) = 0x7E := by decide
  rw [crc8Block_frameHeader, hlow]
  decide
/-- Settles O60: the stray byte, the start marker and the length's low byte are a header whose CRC the next byte is not,
and no start marker follows. -/
theorem strayStartMarkerLosesTheFrame : Obligations.StrayStartMarkerLosesTheFrame := by
  intro s rest h
  have hbytes : 0xFA :: buildFrame [0x41] = frameHeader 0x01FA ++ 0x00 :: [0xFE, 0xFB, 0x41, 0x43, 0xFE] := by
    rw [buildFrame_0x41]
    rfl
  have hbad := takeByte_hdrCrc (s := s.withCandidate .hdrCrc 0x01FA 0 (crc8Block (frameHeader 0x01FA)) 0) h.armed rfl 0
  rw [State.withCandidate_rxHcrc, if_neg crc8Block_frameHeader_0x01FA_ne] at hbad
  have hrest : Reads s.abandon [0xFE, 0xFB, 0x41, 0x43, 0xFE] s.abandon :=
    reads_noise (s := s.abandon) h.armed rfl (by decide)
  have hreads : Reads s (0xFA :: buildFrame [0x41]) s.abandon := by
    rw [hbytes]
    exact (reads_frameHeader h.armed h.scanning _).append (.cons h.armed hbad hrest)
  have hrun := run_of_reads h.delivers hreads
  rw [List.length_cons, length_buildFrame] at hrun
  exact ⟨_, hrun, h.armed, rfl, rfl, rfl, fun _ => rfl⟩

/-! ### What acceptance means -/

/-- The bytes that the candidate in progress has delivered are `c`, and the registers say so (10_state.md R28). -/
def State.delivered (s : State) (c : List Byte) : Prop :=
  match s.rxSt with
  | .waitStart => c = []
  | .lenLow => c = [Config.startMarker] ∧ s.rxHcrc = crc8Block c
  | .lenHigh => c = [Config.startMarker, lowByte s.rxLen] ∧ s.rxHcrc = crc8Block c
  | .hdrCrc => c = frameHeader s.rxLen ∧ s.rxHcrc = crc8Block c
  | .dataStart => c = frameHeader s.rxLen ++ [crc8Block (frameHeader s.rxLen)] ∧ s.rxFcrc = crc8Block c
  | .payload =>
    ∃ p, c = framePrefix s.rxLen ++ p ∧ p.length = s.rxIdx.toNat ∧ s.rxIdx < s.rxLen ∧ s.rxFcrc = crc8Block c
  | .fullCrc => ∃ p, c = framePrefix s.rxLen ++ p ∧ p.length = s.rxLen.toNat ∧ s.rxFcrc = crc8Block c
  | .stop =>
    ∃ p, c = framePrefix s.rxLen ++ p ++ [crc8Block (framePrefix s.rxLen ++ p)] ∧ p.length = s.rxLen.toNat ∧
      s.rxLen ≤ s.rxCap

/-- A byte that does not end the request belongs to the candidate, or leaves none. -/
theorem delivered_concat {s t : State} {c : List Byte} {b : Byte} (ha : s.rxArmed = true)
    (hbuf : s.rxCap.toNat ≤ s.rxBufSize) (hc : s.delivered c) (h : s.takeByte b = .next t)
    (harm : t.rxArmed = true) : t.rxSt = .waitStart ∨ t.delivered (c ++ [b]) := by
  cases hst : s.rxSt <;> simp only [State.delivered, hst] at hc
  case waitStart =>
    subst hc
    rw [takeByte_waitStart ha hst] at h
    split_ifs at h with hb <;> cases h
    · exact .inr ⟨by rw [hb]; rfl, by rw [hb]; exact crc8Update_startMarker.symm⟩
    · exact .inl hst
  case lenLow =>
    obtain ⟨rfl, hcrc⟩ := hc
    rw [takeByte_lenLow ha hst] at h
    cases h
    exact .inr ⟨by simp, by rw [crc8Block_concat, ← hcrc]; rfl⟩
  case lenHigh =>
    obtain ⟨rfl, hcrc⟩ := hc
    rw [takeByte_lenHigh ha hst] at h
    cases h
    exact .inr ⟨by simp [frameHeader], by rw [crc8Block_concat, ← hcrc]; rfl⟩
  case hdrCrc =>
    obtain ⟨rfl, hcrc⟩ := hc
    rw [takeByte_hdrCrc ha hst] at h
    split_ifs at h with hb <;> cases h
    · exact .inr ⟨by rw [hb, hcrc]; rfl, rfl⟩
    · exact .inl rfl
  case dataStart =>
    obtain ⟨rfl, hcrc⟩ := hc
    rw [takeByte_dataStart ha hst] at h
    split_ifs at h with hb hlen <;> cases h
    · exact .inr ⟨[], by simp [hb, framePrefix], by simp [hlen], by rw [crc8Block_concat, ← hcrc]; rfl⟩
    · refine .inr ⟨[], by simp [hb, framePrefix], rfl, ?_, by rw [crc8Block_concat, ← hcrc]; rfl⟩
      simp only [State.withCandidate_rxIdx, State.withCandidate_rxLen]
      bv_omega
    · exact .inl rfl
  case payload =>
    obtain ⟨p, rfl, hp, hidx, hcrc⟩ := hc
    obtain ⟨m, ws, -, htake⟩ := takeByte_payload ha hst hbuf b
    rw [htake] at h
    cases h
    have hfold : crc8Update s.rxFcrc b = crc8Block (framePrefix s.rxLen ++ p ++ [b]) := by
      rw [crc8Block_concat, ← hcrc]
    refine .inr ?_
    have hlen : (p ++ [b]).length = (s.rxIdx + 1).toNat := by
      rw [List.length_append, List.length_singleton, hp]
      bv_omega
    split_ifs with hlast
    · exact ⟨p ++ [b], List.append_assoc _ _ _, hlen.trans (congrArg _ hlast), hfold⟩
    · have hmore : s.rxIdx + 1 < s.rxLen := by bv_omega
      exact ⟨p ++ [b], List.append_assoc _ _ _, hlen, hmore, hfold⟩
  case fullCrc =>
    obtain ⟨p, rfl, hp, hcrc⟩ := hc
    rw [takeByte_fullCrc ha hst] at h
    split_ifs at h with hb <;> cases h
    · obtain ⟨rfl, hcap⟩ := hb
      exact .inr ⟨p, by rw [hcrc]; rfl, hp, hcap⟩
    · exact .inl rfl
  case stop =>
    rw [takeByte_stop ha hst] at h
    split_ifs at h with hb <;> cases h
    · cases harm
    · exact .inl rfl

/-- A byte that ends the request completes a frame within capacity. -/
theorem exists_buildFrame_of_disarmed {s t : State} {c : List Byte} {b : Byte} (ha : s.rxArmed = true)
    (hc : s.delivered c) (h : s.takeByte b = .next t) (hd : t.rxArmed = false) :
    ∃ p, p.length ≤ s.rxCap.toNat ∧ c ++ [b] = buildFrame p := by
  obtain ⟨hw, hsel⟩ := decodeSrc_sound (k := s.ctx) ha (srcWord false b)
  rcases exec_disarms h ha hd with ⟨hi, -⟩ | ⟨⟨x, hi⟩, -⟩ | ⟨hi, -⟩ <;> rw [hi] at hw hsel
  · have hst : s.rxSt = .stop := by simpa [selects, Instr.wellFormed, ha] using hsel
    have hb : b = Config.stopMarker := by
      simpa using (congrArg srcByte (PortWord.src.inj hw)).symm
    simp only [State.delivered, hst] at hc
    obtain ⟨p, rfl, hp, hcap⟩ := hc
    refine ⟨p, hp ▸ hcap, ?_⟩
    rw [buildFrame_eq_body_append (len := s.rxLen) (by simp [hp]), hb, List.append_assoc]
    rfl
  · simpa using congrArg srcError (PortWord.src.inj hw)
  · cases hw

/-- After bytes that did not end the request, the last of them are those of the candidate in progress, which began when
the engine was scanning. -/
theorem Reads.exists_candidate {s t : State} {bs : List Byte} (h : Reads s bs t) (hst : s.rxSt = .waitStart)
    (hbuf : s.rxCap.toNat ≤ s.rxBufSize) (harm : t.rxArmed = true) :
    ∃ noise c u, bs = noise ++ c ∧ Reads s noise u ∧ u.rxSt = .waitStart ∧ Reads u c t ∧ t.delivered c := by
  induction bs using List.reverseRecOn generalizing t with
  | nil =>
    cases h
    exact ⟨[], [], s, rfl, .nil s, hst, .nil s, by simp [State.delivered, hst]⟩
  | append_singleton bs b ih =>
    obtain ⟨v, hv, ha, hb⟩ := reads_concat.mp h
    obtain ⟨noise, c, u, rfl, hnoise, hu, hc, hdel⟩ := ih hv ha
    rcases delivered_concat ha (buffer_of_setting hv.setting_eq hbuf) hdel hb harm with hwait | hdel
    · exact ⟨noise ++ c ++ [b], [], t, (List.append_nil _).symm, h, hwait, .nil t, by simp [State.delivered, hwait]⟩
    · exact ⟨noise, c ++ [b], u, List.append_assoc _ _ _, hnoise, hu, reads_concat.mpr ⟨v, hc, ha, hb⟩, hdel⟩

/-- Bytes of which the last one ended the request end in a frame within capacity: the engine was scanning when that
frame began, in some state `u`, and has answered for it. -/
theorem Reads.ends_in_frame {s t : State} {bs : List Byte} (h : Reads s bs t) (ha : s.rxArmed = true)
    (hst : s.rxSt = .waitStart) (hbuf : s.rxCap.toNat ≤ s.rxBufSize) (hd : t.rxArmed = false) :
    ∃ (noise p : List Byte) (u : State) (m : Memory) (ws : List (Half × Byte)),
      bs = noise ++ buildFrame p ∧ p.length ≤ u.rxCap.toNat ∧ u.setting = s.setting ∧ u.rxResps = s.rxResps ∧
        u.Stored 0 p m ∧ t = (u.withStores m ws).endRx .ok (BitVec.ofNat 16 p.length) := by
  rcases List.eq_nil_or_concat bs with rfl | ⟨bs, b, rfl⟩
  · cases h
    simp [ha] at hd
  · rw [List.concat_eq_append] at h
    obtain ⟨v, hv, hva, hb⟩ := reads_concat.mp h
    obtain ⟨noise, c, u, rfl, hnoise, hu, hc, hdel⟩ := hv.exists_candidate hst hbuf hva
    obtain ⟨p, hp, hframe⟩ := exists_buildFrame_of_disarmed hva hdel hb hd
    have hua := hc.rxArmed_of_rxArmed hva
    have hcap : v.rxCap = u.rxCap := congrArg Setting.rxCap hc.setting_eq
    have hread : Reads u (buildFrame p) t := hframe ▸ reads_concat.mpr ⟨v, hc, hva, hb⟩
    rw [hcap] at hp
    obtain ⟨m, ws, hstored, hread'⟩ := reads_frame_within hua hu (buffer_of_setting hnoise.setting_eq hbuf) hp
    exact ⟨noise, p, u, m, ws, by simp [← hframe], hp, hnoise.setting_eq, hnoise.rxResps_eq hua, hstored,
      hread.unique hread'⟩

theorem acceptable_buildFrame {p : List Byte} {cap : Half} (h : p.length ≤ cap.toNat) :
    acceptable (buildFrame p) cap = true := by
  have hp : p.length ≤ 65535 := by omega
  rw [acceptable, isFrame_buildFrame hp, Bool.true_and, decide_eq_true_iff, BitVec.le_def,
    toNat_declaredLen_buildFrame hp]
  exact h

theorem getElem?_buildFrame_payload {p : List Byte} {i : Nat} (h : i < p.length) :
    (buildFrame p)[5 + i]? = some p[i] := by
  simp [buildFrame_eq, Nat.add_comm 5, List.getElem?_append_left h]

/-- Settles O57: the run reads the bytes, which end in a frame within capacity. -/
theorem acceptanceMeansAFrame : Obligations.AcceptanceMeansAFrame := by
  intro s t bs rest h hrun hd harm
  obtain ⟨v, hv⟩ := exists_reads_of_run h.delivers h.buffer harm
  have hread := run_of_reads h.delivers hv
  rw [hrun] at hread
  cases hread
  obtain ⟨noise, p, u, m, ws, rfl, hp, hset, hresps, hstored, rfl⟩ :=
    hv.ends_in_frame h.armed h.scanning h.buffer hd
  obtain ⟨hin, -⟩ := hstored
  simp only [State.setting, Setting.mk.injEq] at hset
  obtain ⟨-, hcap, -, hbase, hraced, -⟩ := hset
  rw [hcap] at hp
  simp only [hcap, hbase, hraced, Nat.zero_add] at hin
  refine ⟨noise, buildFrame p, rfl, acceptable_buildFrame hp, ?_, ?_, fun i hi hr => ?_⟩
  · rw [declaredLen_buildFrame, ← hresps]
    rfl
  · rw [declaredLen_buildFrame]
    rfl
  · rw [toNat_declaredLen_buildFrame (by omega)] at hi
    rw [getElem?_buildFrame_payload hi]
    exact congrArg some (hin i hi (by omega) hr)

end Sys2Proof.Machine
end

section
/-! The transmit engine (42_tx_framer.md R170 to R182): what each operation answers, that a request gets one frame and
one answer at most, the three forms of the full CRC, and that the operations of the two engines commute. -/

namespace Sys2Proof.Machine

/-! ### The two engines side by side (R182) -/

/-- `s` with the receive engine's part of `r`: the fields that an operation of the receive engine writes. -/
def State.withRxOf (s r : State) : State :=
  { s with
    rxArmed := r.rxArmed, rxSt := r.rxSt, rxLen := r.rxLen, rxIdx := r.rxIdx, rxHcrc := r.rxHcrc, rxFcrc := r.rxFcrc
    rxCap := r.rxCap, mem := r.mem, raced := r.raced, rxPending := r.rxPending, rxResps := r.rxResps
    rxBufWrs := r.rxBufWrs }

/-- `s` with the transmit engine's part of `r`: the fields that an operation of the transmit engine writes. -/
def State.withTxOf (s r : State) : State :=
  { s with
    txSt := r.txSt, txLen := r.txLen, txFrame := r.txFrame, txPending := r.txPending, txResps := r.txResps
    sinkWrites := r.sinkWrites, line := r.line, free := r.free }

/-- The two parts do not overlap. -/
theorem State.withRxOf_withTxOf (s r w : State) : (s.withRxOf r).withTxOf w = (s.withTxOf w).withRxOf r := rfl

theorem RxMove.eq_withRxOf {i : Instr} {s t : State} (h : RxMove i s t) : t = s.withRxOf t := by
  cases h <;> subst_vars <;> rfl

theorem TxMove.eq_withTxOf {i : Instr} {s t : State} (h : TxMove i s t) : t = s.withTxOf t := by
  cases h <;> subst_vars <;> rfl

/-- An operation of the receive engine neither reads nor writes the transmit engine's part. -/
theorem exec_withTxOf {i : Instr} {s t : State} (hi : isReceiveOp i = true) (h : exec i s = .next t) (w : State) :
    exec i (s.withTxOf w) = .next (t.withTxOf w) := by
  have hsel := selects_of_exec_eq_next h
  cases i <;> simp only [isReceiveOp, Bool.false_eq_true] at hi
  case rxReq c =>
    obtain ⟨hc, rfl⟩ := le_and_eq_of_perform_withBuffer h
    exact (perform_of_selects hsel).trans (withBuffer_of_le hc)
  case rxPayStore b =>
    obtain ⟨hc, rfl⟩ := le_and_eq_of_perform_withBuffer h
    exact (perform_of_selects hsel).trans (withBuffer_of_le hc)
  all_goals
    obtain rfl := eq_of_perform h
    exact perform_of_selects hsel

/-- An operation of the transmit engine does not write the receive engine's part, and reads of it only the memory that
holds the payload to send. -/
theorem exec_withRxOf {j : Instr} {s u r : State} (hj : isTransmitOp j = true) (h : exec j s = .next u)
    (hpay : ∀ p len, j = .txReqSend p len → (s.withRxOf r).readPayload len = s.readPayload len) :
    exec j (s.withRxOf r) = .next (u.withRxOf r) := by
  have hsel := selects_of_exec_eq_next h
  cases j <;> simp only [isTransmitOp, Bool.false_eq_true] at hj
  case txReqSend p len =>
    obtain rfl := eq_of_perform h
    refine (perform_of_selects hsel).trans ?_
    rw [hpay p len rfl]
    rfl
  all_goals
    obtain rfl := eq_of_perform h
    exact perform_of_selects hsel

theorem readPayload_congr {s t : State} {len : Half}
    (h : ∀ off < len.toNat, t.mem.read (t.txBase + off) = s.mem.read (s.txBase + off)) :
    t.readPayload len = s.readPayload len :=
  List.map_congr_left fun off hoff => h off (List.mem_range.mp hoff)

/-- The payload to send reads the same after an operation of the receive engine that stores to none of its bytes
(20_memory.md R64). -/
theorem readPayload_withRxOf_of_exec {i : Instr} {s t : State} {len : Half} (h : exec i s = .next t)
    (hstore : ∀ b off, i = .rxPayStore b → off < len.toNat → s.txBase + off ≠ s.rxAddr s.rxIdx) :
    (s.withRxOf t).readPayload len = s.readPayload len := by
  refine readPayload_congr fun off hoff => ?_
  change t.mem.read (s.txBase + off) = s.mem.read (s.txBase + off)
  by_cases hi : ∃ b, i = .rxPayStore b
  · obtain ⟨b, rfl⟩ := hi
    obtain ⟨-, -, hmem⟩ := exec_rxPayStore_mem h
    rw [hmem, Memory.read_put_other _ _ (hstore b off rfl hoff)]
  · rw [exec_mem_of_ne_rxPayStore (not_exists.mp hi) h]

/-- Settles O50: both orders reach the state with the receive part of `t` and the transmit part of `u`. -/
theorem enginesCommute : Obligations.EnginesCommute := by
  intro i j s t u hi hj ht hu hdisjoint
  have htx : t = s.withRxOf t := (exec_rxMove hi ht).eq_withRxOf
  have hux : u = s.withTxOf u := (exec_txMove hj hu).eq_withTxOf
  refine ⟨u.withRxOf t, ?_, ?_⟩
  · have hsend := exec_withRxOf (r := t) hj hu fun p len hjs =>
      readPayload_withRxOf_of_exec ht fun b off his => hdisjoint b p len off his hjs
    rwa [← htx] at hsend
  · have hreceive := exec_withTxOf hi ht u
    have hboth : t.withTxOf u = u.withRxOf t :=
      calc t.withTxOf u
        _ = (s.withRxOf t).withTxOf u := congrArg (·.withTxOf u) htx
        _ = (s.withTxOf u).withRxOf t := s.withRxOf_withTxOf t u
        _ = u.withRxOf t := congrArg (·.withRxOf t) hux.symm
    rwa [← hux, hboth] at hreceive

/-! ### Requests (R171 to R174) -/

/-- Settles O31: the clause of TX_REQ_NOPAY does not read `TX_FRAME_MAX`. -/
theorem missingPayloadIsAnswered : Obligations.MissingPayloadIsAnswered := by
  intro s len hst hlen
  exact perform_of_selects (by simpa [selects, Instr.wellFormed, hst] using hlen)

/-- Settles O32: the frame size is a number, so nothing wraps. -/
theorem oversizeRequestIsAnswered : Obligations.OversizeRequestIsAnswered := by
  intro s p len hst hp hbig
  exact perform_of_selects (by simpa [selects, Instr.wellFormed, frameTooBig, hst, hbig] using hp)

/-- Settles O33: TX_REQ_SEND reads the payload at the time of the request. -/
theorem sendBuildsAndHandsOverTheFrame : Obligations.SendBuildsAndHandsOverTheFrame := by
  intro s p len hst hp hfit
  exact perform_of_selects (by simpa [selects, Instr.wellFormed, frameTooBig, hst, hfit] using hp)

/-! ### The sink's answer (R175 to R178) -/

theorem countMatches_iff {n : BitVec 17} {len : Half} : countMatches n len = true ↔ n.toNat = len.toNat + 7 :=
  beq_iff_eq

theorem exec_txSinkOk {s : State} {n : BitVec 17} (hst : s.txSt = .waitSink) (hn : n.toNat = s.txLen.toNat + 7) :
    exec (.txSinkOk n) s = .next (s.endTx .ok n.toNat) := by
  have hcount := countMatches_iff.mpr hn
  exact perform_of_selects (by simp [selects, wellFormed_txSinkOk_of_countMatches hcount, hst, hcount])

theorem exec_txSinkShort {s : State} {n : BitVec 17} (hst : s.txSt = .waitSink)
    (hn : n.toNat ≠ s.txLen.toNat + 7) : exec (.txSinkShort n) s = .next (s.endTx .shortWrite n.toNat) := by
  have hcount : countMatches n s.txLen = false := Bool.eq_false_iff.mpr (hn ∘ countMatches_iff.mp)
  exact perform_of_selects (by simp [selects, Instr.wellFormed, hst, hcount])

theorem exec_txSinkErr {s : State} (hst : s.txSt = .waitSink) (x : BitVec 17) :
    exec (.txSinkErr x) s = .next { s.endTx .sinkError (Config.linePrefix s.free) with free := s.free + 1 } :=
  perform_of_selects (by simp [selects, Instr.wellFormed, hst])

/-- Settles O34: both counts end the request, with the status of their own. -/
theorem sinkCountEndsTheRequest : Obligations.SinkCountEndsTheRequest :=
  fun _ _ hst => ⟨exec_txSinkOk hst, exec_txSinkShort hst⟩

/-- Settles O35: as many leading bytes of the frame are on the line as the draw of a free value says. -/
theorem sinkErrorEndsTheRequest : Obligations.SinkErrorEndsTheRequest :=
  fun _ x hst => ⟨_, exec_txSinkErr hst x, rfl, _, List.take_prefix _ _, rfl⟩

/-- After the first reset, with no held request ready, the step is the script's (30_encoding.md R93). -/
theorem step_eq_runScript {s : State} (hr : s.resetDone = true) (hh : s.noHeldReady) : step s = runScript s := by
  simp [step, runStep, runNext, hr, heldRequest_eq_none.mpr hh]

/-- A reset after the first one cuts off just the write that is in flight. -/
theorem State.cutsOff_of_resetDone {s : State} (hr : s.resetDone = true) :
    s.cutsOff = decide (s.txSt = .waitSink) := by
  rw [State.cutsOff, hr]
  rfl

/-- Settles O36: TX_SINK_STRAY answers its own state, RESET counts the write it cuts off, and the answer to such a write
takes one from the count, whatever the transmit state. -/
theorem straySinkAnswerIsIgnored : Obligations.StraySinkAnswerIsIgnored := by
  refine ⟨fun s e n hst => perform_of_selects (by simp [selects, Instr.wellFormed, hst]),
    fun s t hr h => ?reset, fun s w es n hr hh hs hc => ?stale⟩
  case reset =>
    obtain rfl := eq_of_perform ((exec_reset s).symm.trans h)
    rw [State.applyReset_cutOffWrites, State.cutsOff_of_resetDone hr]
    split_ifs with hst <;> simp [hst]
  case stale =>
    rw [step_eq_runScript hr hh]
    simp [runScript, hs, lineWaitsFor, runEvent, staleSinkResp, hc]

/-! ### One request, one answer (R179, R180) -/

/-- Settles O53: the clause of each operation names its transmit state, and what it answers is one update of the state. -/
theorem oneRequestOneAnswer : Obligations.OneRequestOneAnswer := by
  intro i s t hi h
  have hsel := selects_of_exec_eq_next h
  cases i <;> simp only [isTransmitOp, Bool.false_eq_true] at hi <;>
    simp only [selects, Bool.and_eq_true, beq_iff_eq] at hsel <;> obtain rfl := eq_of_perform h
  case txReqSend p len =>
    obtain ⟨-, hst, -⟩ := hsel
    exact .inl ⟨⟨p, len, rfl⟩, hst, rfl, rfl, rfl, rfl⟩
  case txReqNopay len =>
    obtain ⟨-, hst⟩ := hsel
    exact .inr (.inl ⟨.inl ⟨len, rfl⟩, hst, hst, rfl, _, rfl, rfl⟩)
  case txReqToobig p len =>
    obtain ⟨-, hst, -⟩ := hsel
    exact .inr (.inl ⟨.inr ⟨p, len, rfl⟩, hst, hst, rfl, _, rfl, rfl⟩)
  case txSinkOk n =>
    obtain ⟨-, hst, -⟩ := hsel
    exact .inr (.inr (.inl ⟨.inl ⟨n, rfl⟩, hst, rfl, rfl, _, rfl, rfl⟩))
  case txSinkShort n =>
    obtain ⟨-, hst, -⟩ := hsel
    exact .inr (.inr (.inl ⟨.inr (.inl ⟨n, rfl⟩), hst, rfl, rfl, _, rfl, rfl⟩))
  case txSinkErr x =>
    obtain ⟨-, hst⟩ := hsel
    exact .inr (.inr (.inl ⟨.inr (.inr ⟨x, rfl⟩), hst, rfl, rfl, _, rfl, rfl⟩))
  case txSinkStray e n =>
    obtain ⟨-, hst⟩ := hsel
    exact .inr (.inr (.inr ⟨⟨e, n, rfl⟩, hst, rfl⟩))

/-! ### The full CRC (R181) -/

theorem crc8Block_append (l m : List Byte) (c : Byte) : crc8Block (l ++ m) c = crc8Block m (crc8Block l c) :=
  List.foldl_append

/-- The bytes of a built frame before its full CRC. -/
theorem take_buildFrame_body (p : List Byte) :
    (buildFrame p).take (5 + p.length) = framePrefix (BitVec.ofNat 16 p.length) ++ p := by
  rw [buildFrame_eq_body_append rfl]
  exact List.take_left' (by simp [framePrefix, frameHeader]; omega)

/-- The full CRC of a built frame is the CRC of the bytes before it (R173). -/
theorem getElem?_buildFrame_fcrc (p : List Byte) :
    (buildFrame p)[5 + p.length]? = some (crc8Block ((buildFrame p).take (5 + p.length))) := by
  rw [take_buildFrame_body]
  simp [buildFrame_eq, Nat.add_comm 5]

/-- The five bytes before the payload fold to what the data-start marker alone does, for the header and its CRC fold to
zero (40_crc8.md R105). -/
theorem crc8Block_framePrefix_append (len : Half) (p : List Byte) :
    crc8Block (framePrefix len ++ p) = crc8Block (Config.dataStartMarker :: p) := by
  rw [crc8Block_append, crc8Block_framePrefix]
  rfl

/-- Settles O9: the receiver's seed is zero, and so is what the four header bytes fold to in the transmitter's form. -/
theorem fullCrcFormsAgree : Obligations.FullCrcFormsAgree := by
  intro p _ len seed
  have hseed : seed = 0 := crc8Block_header_crc len
  have hbody : crc8Block ((buildFrame p).take (5 + p.length)) = crc8Block (Config.dataStartMarker :: p) := by
    rw [take_buildFrame_body, crc8Block_framePrefix_append]
  refine ⟨getElem?_buildFrame_fcrc p, ?_, (getElem?_buildFrame_fcrc p).trans (congrArg some hbody)⟩
  rw [hbody, hseed]
  rfl

end Sys2Proof.Machine
end

section
/-! Responses, waiting and the decoded step (60_exceptions.md R203, R204, R207, R215 to R218): what a step can do to the
responses of an engine, said once for both engines, and the runs that never end. -/

namespace Sys2Proof.Machine

/-! ### The responses of an engine -/

/-- The responses that an engine has given, and the one of them that the host has not taken (R207). -/
structure Answers (W : Type) where
  given : List W
  pending : Option W

/-- One more response is given, and it is pending. -/
def Answers.give {W : Type} (a : Answers W) (w : W) : Answers W := ⟨a.given ++ [w], some w⟩

/-- Nothing is pending any more. -/
def Answers.take {W : Type} (a : Answers W) : Answers W := ⟨a.given, none⟩

def State.rxAnswers (s : State) : Answers RxRespWord := ⟨s.rxResps, s.rxPending⟩

def State.txAnswers (s : State) : Answers TxRespWord := ⟨s.txResps, s.txPending⟩

/-- How the responses of an engine change: none is given; or one that `legal` admits is given, by an engine that is
`working` on a request or has none pending; or what is pending goes away, for a reason in `taken`. -/
inductive Answers.Change {W : Type} (legal : W → Prop) (working taken : Prop) (a b : Answers W) : Prop where
  | keeps (h : b = a)
  | gives (w : W) (hw : legal w) (hf : working ∨ a.pending = none) (h : b = a.give w)
  | takes (hc : taken) (h : b = a.take)

section
variable {W : Type} {legal : W → Prop} {working taken : Prop} {a b : Answers W}

theorem Answers.Change.legal_of_mem (h : Answers.Change legal working taken a b) :
    ∀ w ∈ b.given, w ∈ a.given ∨ legal w := by
  cases h with
  | keeps h => exact fun w hm => .inl (h ▸ hm)
  | takes hc h =>
    subst h
    exact fun w hm => .inl hm
  | gives v hv hf h =>
    subst h
    intro w hm
    rcases List.mem_append.mp hm with hm | hm
    · exact .inl hm
    · exact .inr (List.mem_singleton.mp hm ▸ hv)

theorem Answers.Change.legal_of_pending (h : Answers.Change legal working taken a b) :
    ∀ w, b.pending = some w → a.pending = some w ∨ legal w := by
  cases h with
  | keeps h => exact fun w hp => .inl (h ▸ hp)
  | takes hc h =>
    subst h
    exact fun w hp => nomatch hp
  | gives v hv hf h =>
    subst h
    exact fun w hp => .inr (Option.some.inj hp ▸ hv)

/-- An engine that has none pending while it works on a request gives a response only where none is pending. -/
theorem Answers.Change.pending_stays (h : Answers.Change legal working taken a b)
    (hwork : working → a.pending = none) :
    b.given = a.given ∧ b.pending = a.pending ∨
      a.pending = none ∧ (∃ w, b.given = a.given ++ [w] ∧ b.pending = some w) ∨
      b.given = a.given ∧ b.pending = none ∧ taken := by
  cases h with
  | keeps h => exact .inl ⟨congrArg Answers.given h, congrArg Answers.pending h⟩
  | gives w hw hf h =>
    subst h
    exact .inr (.inl ⟨hf.elim hwork id, w, rfl, rfl⟩)
  | takes hc h =>
    subst h
    exact .inr (.inr ⟨rfl, rfl, hc⟩)

end

/-! ### The words that are given (R203, R204) -/

/-- An `rx_resp` word with status OK, or IO_ERROR with length 0 (R203). -/
def RxRespLegal (w : RxRespWord) : Prop := w.toNat < 65536 ∨ w = 0x10000#18

/-- A `tx_resp` word that is no reserved code (R204). -/
def TxRespLegal (w : TxRespWord) : Prop := w.toNat ≤ 4

theorem toNat_rxRespWord_ok (len : Half) : (rxRespWord .ok len).toNat = len.toNat := by
  have hstatus : (rxStatusCode .ok).setWidth 18 <<< 16 = 0#18 := by decide
  simp only [rxRespWord, hstatus, BitVec.zero_or, BitVec.toNat_setWidth]
  omega

theorem rxRespLegal_ok (len : Half) : RxRespLegal (rxRespWord .ok len) := by
  refine .inl ?_
  rw [toNat_rxRespWord_ok]
  exact len.isLt

theorem rxRespLegal_ioError : RxRespLegal (rxRespWord .ioError 0) := .inr (by decide)

theorem txRespLegal_txStatusCode (x : TxStatus) : TxRespLegal (txStatusCode x) := by
  cases x <;> simp [TxRespLegal, txStatusCode]

/-! ### What an operation answers -/

/-- An operation of the receive engine answers only where it ends the request (41_rx_framer.md R139, R141). -/
theorem exec_rxAnswers {i : Instr} {s t : State} (hi : isReceiveOp i = true) (h : exec i s = .next t) :
    t.rxAnswers = s.rxAnswers ∨ s.rxArmed = true ∧ ∃ w, RxRespLegal w ∧ t.rxAnswers = s.rxAnswers.give w := by
  cases exec_rxMove hi h with
  | finish x n ha ht =>
    rcases exec_disarms h ha (congrArg State.rxArmed ht) with ⟨-, rfl⟩ | ⟨-, rfl⟩ | ⟨rfl, -⟩
    · exact .inr ⟨ha, _, rxRespLegal_ok s.rxLen, rfl⟩
    · exact .inr ⟨ha, _, rxRespLegal_ioError, rfl⟩
    · cases hi
  | _ =>
    subst_vars
    exact .inl rfl

/-- An operation of the transmit engine answers a `tx_req` word or for the frame in flight (42_tx_framer.md R171 to
R177). -/
theorem exec_txAnswers {i : Instr} {s t : State} (hi : isTransmitOp i = true) (h : exec i s = .next t) :
    t.txAnswers = s.txAnswers ∨
      (s.txSt = .waitSink ∨ ∃ x, encode i = .txReq x) ∧ ∃ x, t.txAnswers = s.txAnswers.give (txStatusCode x) := by
  have hsel := selects_of_exec_eq_next h
  cases i <;> simp only [isTransmitOp, Bool.false_eq_true] at hi <;>
    simp only [selects, Bool.and_eq_true, beq_iff_eq] at hsel <;> obtain rfl := eq_of_perform h
  case txReqNopay len => exact .inr ⟨.inr ⟨_, rfl⟩, .noPayload, rfl⟩
  case txReqToobig p len => exact .inr ⟨.inr ⟨_, rfl⟩, .frameTooLarge, rfl⟩
  case txReqSend p len => exact .inl rfl
  case txSinkOk n =>
    obtain ⟨-, hst, -⟩ := hsel
    exact .inr ⟨.inl hst, .ok, rfl⟩
  case txSinkShort n =>
    obtain ⟨-, hst, -⟩ := hsel
    exact .inr ⟨.inl hst, .shortWrite, rfl⟩
  case txSinkErr x =>
    obtain ⟨-, hst⟩ := hsel
    exact .inr ⟨.inl hst, .sinkError, rfl⟩
  case txSinkStray e n => exact .inl rfl

theorem RxMove.keeps_txAnswers {i : Instr} {s t : State} (h : RxMove i s t) : t.txAnswers = s.txAnswers := by
  cases h <;> subst_vars <;> rfl

theorem TxMove.keeps_rxAnswers {i : Instr} {s t : State} (h : TxMove i s t) : t.rxAnswers = s.rxAnswers := by
  cases h <;> subst_vars <;> rfl

/-! ### What a step answers -/

/-- Why a step from `s` to `t` can leave no `rx_resp` pending: the host takes it, or a reset (R207, R232; log 12). -/
def RxTaken (s t : State) : Prop :=
  ((∃ es, s.script = .takeRxResp :: es) ∨ t = s.takeRx) ∨ ∃ u, Takes s .rst u

/-- The same for the `tx_resp`. -/
def TxTaken (s t : State) : Prop :=
  ((∃ es, s.script = .takeTxResp :: es) ∨ t = s.takeTx) ∨ ∃ u, Takes s .rst u

/-- What one step does to the responses of the receive engine. -/
def RxChange (s t : State) : Prop :=
  Answers.Change RxRespLegal (s.rxArmed = true) (RxTaken s t) s.rxAnswers t.rxAnswers

/-- What one step does to the responses of the transmit engine. -/
def TxChange (s t : State) : Prop :=
  Answers.Change TxRespLegal (s.txSt = .waitSink) (TxTaken s t) s.txAnswers t.txAnswers

/-- A `tx_req` that no pending response holds back comes to a working engine or to one with none pending. -/
theorem waitSink_or_txPending_eq_none {s : State} {x : TxReqWord} (h : responseFirst (.txReq x) s = none) :
    s.txSt = .waitSink ∨ s.txPending = none := by
  cases hst : s.txSt with
  | idle => exact .inr (by simpa [responseFirst, hst] using h)
  | waitSink => exact .inl rfl

/-- Taking a word away from where it is offered leaves the engines' work and their responses as they are. -/
theorem Takes.keeps_answers {s u : State} {w : PortWord} (h : Takes s w u) :
    u.rxAnswers = s.rxAnswers ∧ u.txAnswers = s.txAnswers ∧ u.rxArmed = s.rxArmed ∧ u.txSt = s.txSt := by
  cases h <;> exact ⟨rfl, rfl, rfl, rfl⟩

/-- What the operation of a taken word does to the responses. -/
theorem Takes.exec_change {s u t : State} {w : PortWord} {i : Instr} (ht : Takes s w u)
    (hd : decode u.ctx w = .ok i) (he : exec i u = .next t) : RxChange s t ∧ TxChange s t := by
  obtain ⟨hrx, htx, harm, hst⟩ := ht.keeps_answers
  obtain ⟨hw, -⟩ := decode_sound hd
  rw [RxChange, TxChange, ← hrx, ← htx, ← harm, ← hst]
  rcases op_cases i with hi | hi | rfl
  · refine ⟨?_, .keeps (exec_rxMove hi he).keeps_txAnswers⟩
    rcases exec_rxAnswers hi he with hk | ⟨ha, v, hv, hg⟩
    · exact .keeps hk
    · exact .gives v hv (.inl ha) hg
  · refine ⟨.keeps (exec_txMove hi he).keeps_rxAnswers, ?_⟩
    rcases exec_txAnswers hi he with hk | ⟨hfree, x, hg⟩
    · exact .keeps hk
    · refine .gives _ (txRespLegal_txStatusCode x) ?_ hg
      rcases hfree with hwait | ⟨y, hy⟩
      · exact .inl hwait
      · obtain rfl := hw.symm.trans hy
        exact waitSink_or_txPending_eq_none ht.responseFirst_eq_none
  · obtain rfl := eq_of_perform ((exec_reset u).symm.trans he)
    obtain rfl : PortWord.rst = w := hw
    exact ⟨.takes (.inr ⟨u, ht⟩) rfl, .takes (.inr ⟨u, ht⟩) rfl⟩

theorem RxChange.of_eq {s t : State} (h : t.rxAnswers = s.rxAnswers) : RxChange s t := .keeps h

theorem TxChange.of_eq {s t : State} (h : t.txAnswers = s.txAnswers) : TxChange s t := .keeps h

theorem State.wait_answers (s : State) (w : PortWord) :
    (s.wait w).rxAnswers = s.rxAnswers ∧ (s.wait w).txAnswers = s.txAnswers := by
  cases w <;> exact ⟨rfl, rfl⟩

theorem State.goOn_answers (s : State) : s.goOn.rxAnswers = s.rxAnswers ∧ s.goOn.txAnswers = s.txAnswers := by
  unfold State.goOn
  split <;> exact ⟨rfl, rfl⟩

/-- What a host action of the script does to the responses. -/
theorem runEvent_host_change {s t : State} {e : Event} {es : List Event} (he : isHostAction e = true)
    (hs : s.script = e :: es) (h : runEvent e { s with script := es } = .next t) : RxChange s t ∧ TxChange s t := by
  obtain ⟨m, p, q, r, n, c, rfl, -, hp, hq⟩ := runEvent_host he h
  constructor
  · rcases hp with rfl | ⟨rfl, rfl⟩
    · exact .of_eq rfl
    · exact .takes (.inl (.inl ⟨es, hs⟩)) rfl
  · rcases hq with rfl | ⟨rfl, rfl⟩
    · exact .of_eq rfl
    · exact .takes (.inl (.inl ⟨es, hs⟩)) rfl

/-- Everything a step can do to the responses of the two engines. -/
theorem step_change {s t : State} (h : step s = .next t) : RxChange s t ∧ TxChange s t := by
  cases step_eq_next h with
  | word w u ht ho =>
    rcases offer_eq_next ho with ⟨i, hd, he⟩ | ⟨-, rfl⟩
    · exact ht.exec_change hd he
    · obtain ⟨hrx, htx, -⟩ := ht.keeps_answers
      obtain ⟨hrx', htx'⟩ := u.wait_answers w
      exact ⟨.of_eq (hrx'.trans hrx), .of_eq (htx'.trans htx)⟩
  | takesRx hr ha hp ht =>
    subst ht
    exact ⟨.takes (.inl (.inr rfl)) rfl, .of_eq rfl⟩
  | takesTx hr hi hp ht =>
    subst ht
    exact ⟨.of_eq rfl, .takes (.inl (.inr rfl)) rfl⟩
  | host e es hr he hs ht => exact runEvent_host_change he hs ht
  | quiet hr hs ht =>
    obtain ⟨hrx, htx⟩ := s.goOn_answers
    exact ⟨.of_eq (ht ▸ hrx), .of_eq (ht ▸ htx)⟩
  | _ =>
    subst_vars
    exact ⟨.of_eq rfl, .of_eq rfl⟩

/-- Settles O52: the responses change only by words that are not reserved. -/
theorem reservedStatusesAreNeverProduced : Obligations.ReservedStatusesAreNeverProduced := by
  intro s t h
  obtain ⟨hrx, htx⟩ := step_change h
  exact ⟨hrx.legal_of_mem, htx.legal_of_mem, hrx.legal_of_pending, htx.legal_of_pending⟩

/-- Settles O44: the invariant leaves nothing pending at a working engine, and a step about no reset takes only what the
host takes. -/
theorem responsesStayUntilTaken : Obligations.ResponsesStayUntilTaken := by
  intro s t hs h hrst
  obtain ⟨hrx, htx⟩ := step_change h
  have noReset : ¬ ∃ u, Takes s .rst u := not_exists.mpr hrst
  have rx := hrx.pending_stays hs.taken.1
  have tx := htx.pending_stays hs.taken.2
  rw [RxTaken, or_iff_left noReset] at rx
  rw [TxTaken, or_iff_left noReset] at tx
  exact ⟨rx, tx⟩

/-! ### The decoded step (R215) -/

/-- Settles O15: the step offers the word, which runs as what it decodes to or waits. -/
theorem stepRunsTheDecodedInstruction : Obligations.StepRunsTheDecodedInstruction :=
  fun _ _ _ ht => ⟨fun _ hd => (step_of_takes ht).trans (offer_of_decode_ok hd),
    fun _ hd => (step_of_takes ht).trans (offer_of_decode_error hd)⟩

/-! ### Runs that never end (R217, R218) -/

/-- With nothing offered and no line left the environment goes on (log 25). -/
theorem step_eq_goOn {s : State} (hr : s.resetDone = true) (hh : s.noHeldReady) (hs : s.script = [])
    (hw : s.rxArmed = false ∨ s.source = []) : step s = .next s.goOn := by
  rw [step_eq_runScript hr hh]
  simp only [runScript, hs, takeWaiting, waitingWord_eq_none.mpr hw]

theorem run_of_step_self {s : State} (n : Nat) (h : step s = .next s) : Sys2Proof.core.run n s = .next s := by
  induction n with
  | zero => rfl
  | succ n ih => exact (run_succ n h).trans ih

/-- An engine in WAIT_START skips a byte that is no start marker and is delivered next: only the script moves on. -/
theorem step_of_delivers_noise {s : State} {b : Byte} {cs : List Byte} {rest : List Event}
    (h : s.Delivers (b :: cs) rest) (ha : s.rxArmed = true) (hst : s.rxSt = .waitStart)
    (hb : b ≠ Config.startMarker) :
    step s = .next { s with script := deliver cs ++ rest } ∧
      State.Delivers { s with script := deliver cs ++ rest } cs rest :=
  h.step ha (by rw [takeByte_waitStart ha hst, if_neg hb])

/-- A source that repeats bytes without a start marker keeps an armed engine in WAIT_START for ever: a run of any length
changes nothing but the lines still to come. -/
theorem run_of_repeated_noise {s : State} {bs cs : List Byte} (n : Nat) (ha : s.rxArmed = true)
    (hst : s.rxSt = .waitStart) (he : s.endless = .repeats (deliver bs)) (hbs : Config.startMarker ∉ bs)
    (hcs : Config.startMarker ∉ cs) (h : s.Delivers cs []) :
    ∃ es, Sys2Proof.core.run n s = .next { s with script := es } := by
  induction n generalizing s cs with
  | zero => exact ⟨s.script, rfl⟩
  | succ n ih =>
    cases cs with
    | nil =>
      have hgoOn : s.goOn = { s with script := deliver bs } := by simp only [State.goOn, he]
      have hstep := step_eq_goOn h.afterReset ⟨.inl ha, h.noTxReq⟩ h.delivery (.inr h.sourceEmpty)
      rw [run_succ n (hgoOn ▸ hstep)]
      exact ih ha hst he hbs ⟨h.afterReset, h.sourceEmpty, h.noTxReq, (List.append_nil _).symm⟩
    | cons b cs =>
      obtain ⟨hb, hrest⟩ := List.ne_and_not_mem_of_not_mem_cons hcs
      obtain ⟨hstep, hnext⟩ := step_of_delivers_noise h ha hst hb.symm
      rw [run_succ n hstep]
      exact ih ha hst he hrest hnext

/-- Settles O54: a waiting machine answers its own state, noise without an end is skipped byte by byte, and a stream
puts its next word into the script. -/
theorem runsThatNeverEndAreAdmitted : Obligations.RunsThatNeverEndAreAdmitted := by
  refine ⟨fun s n hr hs he hh hw => ?waits, fun s bs n hr hh ha hst hq hs he hbs => ?noise,
    fun s n hr hh hw hs he => ?stream⟩
  case waits =>
    have hgoOn : s.goOn = s := by simp only [State.goOn, he]
    exact run_of_step_self n ((step_eq_goOn hr hh hs hw).trans (congrArg _ hgoOn))
  case noise =>
    obtain ⟨es, hrun⟩ := run_of_repeated_noise (cs := []) n ha hst he hbs List.not_mem_nil ⟨hr, hq, hh.2, hs⟩
    exact ⟨_, hrun, ha, hst, rfl, rfl, rfl⟩
  case stream =>
    have hgoOn : s.goOn =
        { s with script := [.port (.src (Config.streamWord n))], endless := .streams (n + 1) } := by
      simp only [State.goOn, he]
    exact (step_eq_goOn hr hh hs hw).trans (congrArg _ hgoOn)

end Sys2Proof.Machine
end

section
/-! Reset, the capacity and the host's duties (70_reset_and_hazards.md R230 to R241): what RESET writes and that nothing
runs before the first one, that a capacity stays as it was armed with and within the buffer, and that no host action
changes a payload byte on duty. -/

namespace Sys2Proof.Machine

/-! ### Reset (R230 to R233) -/

/-- RESET runs in every state. -/
theorem exec_reset_eq_next (s : State) : exec .reset s = .next s.applyReset :=
  (exec_reset s).trans (perform_of_selects rfl)

/-- Settles O37: the fields of `State.applyReset`, one by one. -/
theorem resetSetsEveryRegister : Obligations.ResetSetsEveryRegister := by
  intro s
  refine ⟨s.applyReset, exec_reset_eq_next s, ?_⟩
  simp

/-- Before the first reset a step whose next line is no reset has no meaning. -/
theorem step_refused_before_first_reset {s : State} (hr : s.resetDone = false)
    (hs : s.script.head? ≠ some (.port .rst)) : step s = .refused .beforeFirstReset := by
  simp [step, runStep, runFirst, State.resetNext, hr, hs]

/-- Settles O38: the reset of the next line is taken before the first reset as well (`Takes.reset`). -/
theorem onlyResetRunsBeforeTheFirstReset : Obligations.OnlyResetRunsBeforeTheFirstReset := by
  refine fun s hr => ⟨step_refused_before_first_reset hr, fun es hs => ?_⟩
  have hstep := calc step s
    _ = offer .rst { s with script := es } := step_of_takes (.reset es (.inl hr) hs)
    _ = exec .reset { s with script := es } := offer_of_decode_ok rfl
    _ = .next (State.applyReset { s with script := es }) := exec_reset_eq_next _
  exact ⟨_, hstep, rfl⟩

/-! ### The capacity (R237, R241) -/

theorem withBuffer_of_lt {c : Half} {s : State} {o : Result} (h : s.rxBufSize < c.toNat) :
    withBuffer c s o = .refused .receiveBufferTooSmall :=
  if_neg (Nat.not_le.mpr h)

/-- Settles O41: both operations are selected and then ask for the buffer. -/
theorem tooSmallABufferIsRefused : Obligations.TooSmallABufferIsRefused := by
  refine ⟨fun s c ha hbuf => (perform_of_selects ?_).trans (withBuffer_of_lt hbuf),
    fun s b ha hst hidx hbuf => (perform_of_selects ?_).trans (withBuffer_of_lt hbuf)⟩
  · simp [selects, Instr.wellFormed, ha]
  · simp [selects, Instr.wellFormed, idxWithin, BitVec.lt_def, ha, hst, hidx]

/-- Only RX_REQ, which runs disarmed, and RESET, which disarms, write RX_CAP. -/
theorem exec_rxCap_of_armed {i : Instr} {s t : State} (h : exec i s = .next t) (ha : s.rxArmed = true)
    (ht : t.rxArmed = true) : t.rxCap = s.rxCap := by
  rcases op_cases i with hi | hi | rfl
  · cases exec_rxMove hi h with
    | arm c hi hd hc heq => simp [ha] at hd
    | _ =>
      subst_vars
      rfl
  · obtain ⟨-, -, hpart, -⟩ := (exec_txMove hi h).keeps_rx
    exact congrArg RxPart.rxCap hpart
  · obtain rfl := eq_of_perform ((exec_reset s).symm.trans h)
    simp at ht

/-- A step runs the operation of an offered word, or leaves the receive engine as it is. -/
theorem exec_or_rxPart_of_step {s t : State} (h : step s = .next t) :
    (∃ u w i, Takes s w u ∧ exec i u = .next t) ∨ t.rxPart = s.rxPart := by
  cases step_eq_next h with
  | word w u ht ho =>
    rcases offer_eq_next ho with ⟨i, -, he⟩ | ⟨-, rfl⟩
    · exact .inl ⟨u, w, i, ht, he⟩
    · have hwait : (u.wait w).rxPart = u.rxPart := by cases w <;> rfl
      exact .inr (hwait.trans ht.keeps_rx.1)
  | host e es hr he hs ht =>
    obtain ⟨m, p, q, r, n, c, rfl, -⟩ := runEvent_host he ht
    exact .inr rfl
  | quiet hr hs ht =>
    have hgoOn : s.goOn.rxPart = s.rxPart := by
      unfold State.goOn
      split <;> rfl
    exact .inr (ht ▸ hgoOn)
  | _ =>
    subst_vars
    exact .inr rfl

/-- Settles O47: an operation that finds the engine armed and leaves it armed keeps the capacity, and nothing else that
a step does writes a receive register. -/
theorem capacityIsFixedWhileArmed : Obligations.CapacityIsFixedWhileArmed := by
  intro s t _ h ha ht
  rcases exec_or_rxPart_of_step h with ⟨u, w, i, htakes, he⟩ | hpart
  · obtain ⟨hkept, -⟩ := htakes.keeps_rx
    have harm : u.rxArmed = true := (congrArg RxPart.rxArmed hkept).trans ha
    exact (exec_rxCap_of_armed he harm ht).trans (congrArg RxPart.rxCap hkept)
  · exact congrArg RxPart.rxCap hpart

/-! ### The payload on duty (R239) -/

/-- A byte on duty is one that a 16-bit length counts. -/
theorem State.onDuty.lt {s : State} {k : Nat} (h : s.onDuty k) : k < 65536 := by
  rcases h with ⟨-, hk⟩ | ⟨w, -, -, hk⟩
  · exact hk.trans s.txLen.isLt
  · exact hk.trans (txReqLen w).isLt

/-- A host action that changes a byte on duty is refused. -/
theorem underDuty_of_changed {s t : State} {k : Nat} (hk : s.onDuty k)
    (hne : t.mem.read (s.txBase + k) ≠ s.mem.read (s.txBase + k)) :
    underDuty s t = .refused .payloadDutyBroken :=
  if_neg fun kept => hne ((dutyKept_iff s t).mp kept k hk).symm

theorem dutyKept_of_mem_eq {s t : State} (h : t.mem = s.mem) : dutyKept s t = true :=
  (dutyKept_iff s t).mpr fun _ _ => by rw [h]

theorem hostRead_mem {i : Half} {s t : State} (h : hostRead i s = .next t) : t.mem = s.mem := by
  unfold hostRead at h
  split_ifs at h <;> cases h <;> rfl

/-- Whatever a host action that goes through does, it keeps the duty. -/
theorem dutyKept_of_runEvent {e : Event} {s t : State} (he : isHostAction e = true) (h : runEvent e s = .next t) :
    dutyKept s t = true := by
  cases e with
  | txMem bs =>
    obtain ⟨kept, rfl⟩ := underDuty_eq_next.mp h
    exact kept
  | hostWrite i b =>
    by_cases hi : i.toNat < s.rxBufSize
    · obtain ⟨kept, rfl⟩ := underDuty_eq_next.mp ((if_pos hi).symm.trans h)
      exact kept
    · cases (hostWrite_of_outside b (Nat.not_lt.mp hi)).symm.trans h
  | hostRead i => exact dutyKept_of_mem_eq (hostRead_mem h)
  | takeRxResp =>
    cases h
    exact dutyKept_of_mem_eq rfl
  | takeTxResp =>
    cases h
    exact dutyKept_of_mem_eq rfl
  | port w => cases he
  | sourceTurn => cases he
  | staleSinkResp w => cases he

/-- A write of a byte on duty through the buffer of a disarmed engine, of another value than is there. -/
theorem hostWrite_of_changed {s : State} {i : Half} {b : Byte} {k : Nat} (hi : i.toNat < s.rxBufSize)
    (hk : s.onDuty k) (haddr : s.rxAddr i = s.txBase + k) (ha : s.rxArmed = false)
    (hne : b ≠ s.mem.read (s.txBase + k)) : hostWrite i b s = .refused .payloadDutyBroken := by
  obtain ⟨v, n, r, hput, hquiet, -⟩ := State.hostPut_spec s (s.rxAddr i) b
  obtain ⟨rfl, -, -⟩ := hquiet ((State.races_rxAddr hi).trans ha)
  refine (if_pos hi).trans (underDuty_of_changed hk ?_)
  rw [hput, haddr, Memory.read_put_same]
  exact hne

/-! ### The bytes of a `txmem` (30_encoding.md R93) -/

/-- The state that a `txmem` leaves where the duty allows it. -/
def State.putPayload (bs : List Byte) (s : State) : State := s.hostPutAll s.txBase (bs.take 65536)

theorem hostTxMem_eq (bs : List Byte) (s : State) : hostTxMem bs s = underDuty s (s.putPayload bs) := rfl

@[simp] theorem State.putPayload_txBase (bs : List Byte) (s : State) : (s.putPayload bs).txBase = s.txBase := by
  obtain ⟨m, n, r, hput, -⟩ := State.hostPutAll_spec (bs.take 65536) s.txBase s
  rw [State.putPayload, hput]

/-- A byte of the list within a 16-bit offset is there, but for one that races. -/
theorem State.read_putPayload_inside {s : State} {bs : List Byte} {k : Nat} (hk : k < bs.length) (h16 : k < 65536)
    (hrace : s.races (s.txBase + k) = false) : (s.putPayload bs).mem.read (s.txBase + k) = bs[k] := by
  obtain ⟨m, n, r, hput, -, -, hin, -⟩ := State.hostPutAll_spec (bs.take 65536) s.txBase s
  have hpeek := hin k (by simp [hk, h16]) hrace
  simp [State.putPayload, hput, Memory.read, hpeek]

/-- Beyond the list, and beyond a 16-bit offset, every byte stays (log 22). -/
theorem State.read_putPayload_outside {s : State} {bs : List Byte} {a : Nat}
    (ha : a < s.txBase ∨ s.txBase + min bs.length 65536 ≤ a) : (s.putPayload bs).mem.read a = s.mem.read a := by
  obtain ⟨m, n, r, hput, -, hout, -⟩ := State.hostPutAll_spec (bs.take 65536) s.txBase s
  have hpeek := hout a (by rwa [List.length_take, Nat.min_comm])
  simp [State.putPayload, hput, Memory.read, hpeek]

/-- Where no byte races, a `txmem` writes memory and nothing else. -/
theorem State.putPayload_eq_of_no_race {s : State} {bs : List Byte}
    (hrace : ∀ k, k < bs.length → s.races (s.txBase + k) = false) :
    s.putPayload bs = { s with mem := (s.putPayload bs).mem } := by
  obtain ⟨m, n, r, hput, -, -, -, hquiet⟩ := State.hostPutAll_spec (bs.take 65536) s.txBase s
  obtain ⟨rfl, rfl⟩ := hquiet fun k hk => hrace k (hk.trans_le (List.length_take_le' _ _))
  rw [State.putPayload, hput]

/-- The payload of a request is the list whose bytes are in memory from offset 0 on. -/
theorem State.readPayload_eq_of_read {s : State} {bs : List Byte} (hlen : bs.length ≤ 65535)
    (hread : ∀ k (hk : k < bs.length), s.mem.read (s.txBase + k) = bs[k]) :
    s.readPayload (BitVec.ofNat 16 bs.length) = bs := by
  refine List.ext_getElem ?_ fun k _ hk => ?_
  · rw [State.readPayload_length, BitVec.toNat_ofNat]
    omega
  · simpa [State.readPayload, State.txPayRead] using hread k hk

/-- A `txmem` that changes no byte on duty keeps the duty: of the bytes on duty it writes those of the list only. -/
theorem dutyKept_putPayload {s : State} {bs : List Byte}
    (hrace : ∀ k, k < bs.length → s.races (s.txBase + k) = false)
    (hduty : ∀ k (hk : k < bs.length), s.onDuty k → bs[k] = s.mem.read (s.txBase + k)) :
    dutyKept s (s.putPayload bs) = true := by
  refine (dutyKept_iff _ _).mpr fun k hon => ?_
  by_cases hk : k < bs.length
  · rw [State.read_putPayload_inside hk hon.lt (hrace k hk), hduty k hk hon]
  · exact (State.read_putPayload_outside (.inr (by omega))).symm

/-- Settles O42: the host's writes run under the duty, and a `txmem` answers `State.putPayload`. -/
theorem payloadDutyIsChecked : Obligations.PayloadDutyIsChecked := by
  refine ⟨fun e s t k he h hk => ((dutyKept_iff s t).mp (dutyKept_of_runEvent he h) k hk).symm,
    fun s bs k hk hon hrace hne => ?txMemRefused,
    fun s i b k hi hk haddr ha hne => hostWrite_of_changed hi hk haddr ha hne,
    fun s bs hrace hduty => ?txMemRuns⟩
  case txMemRefused =>
    refine (hostTxMem_eq bs s).trans (underDuty_of_changed hon ?_)
    rwa [State.read_putPayload_inside hk hon.lt hrace]
  case txMemRuns =>
    have hkept := dutyKept_putPayload hrace hduty
    have hread : ∀ k (hk : k < bs.length), k < 65536 → (s.putPayload bs).mem.read (s.txBase + k) = bs[k] :=
      fun k hk h16 => State.read_putPayload_inside hk h16 (hrace k hk)
    refine ⟨s.putPayload bs, underDuty_eq_next.mpr ⟨hkept, rfl⟩, State.putPayload_eq_of_no_race hrace, hread,
      fun a ha => State.read_putPayload_outside ha, fun hlen => ?_⟩
    refine State.readPayload_eq_of_read hlen fun k hk => ?_
    rw [State.putPayload_txBase]
    exact hread k hk (by omega)

end Sys2Proof.Machine
end
